-- ==== Sys2Proof/Word.lean ====
section
/-! DEFINITION. The word types of the block's two encoded interfaces (30_encoding.md R70) and of its packets.
No numbered register and no address exists (R20, R50), so these are the only bit vectors the machine handles. -/

namespace Sys2Proof

/-- A 64-bit command word of the command port, format CMD64 (R70, R71). -/
abbrev CmdWord := BitVec 64

/-- The 64-bit word a STATUS_RD step returns (R32, R80). -/
abbrev StatusWord := BitVec 64

/-- The 3-bit step label E[2:0], format EVT3 (R79). -/
abbrev Label := BitVec 3

/-- A Socket packet: 20-bit action code, 4-bit id (R107). -/
abbrev SocketPacket := BitVec 24

/-- A Collar packet: id, channel code, action code, intensity, checksum (R111). -/
abbrev CollarPacket := BitVec 40

/-- An ordered sequence of bits, the first one transmitted first (R8, R51). -/
abbrev BitSequence := List Bool

end Sys2Proof
end

