-- ==== Sys2Proof/Syntax.lean ====
section
/-! DEFINITION. The instructions (one constructor per row of spec/opcode_table.json), the command values of
R100, the encoded step of R79 and R86, the response codes of R81 and the assembler lines of R84 and R85. -/

namespace Sys2Proof

/-- The four Collar actions, in the order of the ACT field (R74). -/
inductive Action where
  | shock
  | vibrate
  | beep
  | light
  deriving DecidableEq, Repr

/-- The block's instructions: the two command words of the command port and the seven other step labels (R2,
R70). An operand has exactly the width of its field (R72, R73, R75), so every term is well formed. -/
inductive Instr where
  /-- SOCKET (R151): switch the socket `id` on or off. -/
  | socket (id : BitVec 8) (on : Bool)
  /-- COLLAR (R152): the raw field values, before any clamp. -/
  | collar (id : BitVec 16) (ch : BitVec 8) (act : Action) (intensity : BitVec 8) (dur : BitVec 16)
  /-- TICK (R173): one poll of the Dispatcher. -/
  | tick
  /-- TX_ACCEPT (R175): the transmitter latches the offered waveform. -/
  | txAccept
  /-- TX_REJECT (R176): the transmitter rejects the offered waveform. -/
  | txReject
  /-- TX_DONE (R177): the transmitter has finished the waveform in flight. -/
  | txDone
  /-- SYNC (R178): the completion reaches the busy flag. -/
  | sync
  /-- STATUS_RD (R179): the producer reads the STATUS register. -/
  | statusRd
  /-- RESET (R230). -/
  | reset
  deriving DecidableEq, Repr

/-- Command values (R100): what the decoder makes of a well-formed command word. -/
inductive Command where
  | socket (id : BitVec 8) (on : Bool)
  | collar (id : BitVec 16) (ch : BitVec 8) (act : Action) (intensity : BitVec 8) (dur : BitVec 16)
  deriving DecidableEq, Repr

/-- The command an instruction carries; none for the steps that are not CMD steps (R79). -/
def Instr.command? : Instr → Option Command
  | .socket id on => some (.socket id on)
  | .collar id ch act intensity dur => some (.collar id ch act intensity dur)
  | .tick => none
  | .txAccept => none
  | .txReject => none
  | .txDone => none
  | .sync => none
  | .statusRd => none
  | .reset => none

/-- The instruction that presents a command (R150). -/
def Command.instr : Command → Instr
  | .socket id on => .socket id on
  | .collar id ch act intensity dur => .collar id ch act intensity dur

/-- One encoded step of a schedule (R79, R86): its 3-bit label and its 64-bit payload.
Only the label CMD (000) has a payload; for every other label the payload lines are not read and the canonical
value is 0 (assumption 4). -/
structure StepWord where
  label : Label
  payload : CmdWord
  deriving DecidableEq, Repr

/-- The same step with the payload lines at 0 where the label has no payload (R79). -/
def StepWord.canonical (w : StepWord) : StepWord :=
  if w.label = 0#3 then w else { w with payload := 0#64 }

/-- The response of a CMD step (R81). The fourth 2-bit code is reserved and has no constructor. -/
inductive Ack where
  | ok
  | malformed
  | full
  deriving DecidableEq, Repr

/-- A line of the assembler (R84) or a pseudo-instruction (R85), with its operands as the numbers written.
Their ranges are checked in WellFormed.lean. -/
inductive AsmLine where
  | socket (id : Nat) (on : Bool)
  | collar (id ch : Nat) (act : Action) (intensity dur : Nat)
  | cmd (word : Nat)
  | tick
  | txacc
  | txrej
  | txdone
  | sync
  | status
  | reset
  | socketOn (id : Nat)
  | socketOff (id : Nat)
  | shock (id ch intensity dur : Nat)
  | vibrate (id ch intensity dur : Nat)
  | beep (id ch intensity : Nat)
  | light (id ch intensity : Nat)
  | xmit
  deriving DecidableEq, Repr

end Sys2Proof
end

