-- ==== Sys2Proof/WellFormed.lean ====
section
/-! DEFINITION. Well-formedness: of a command word (R71, R76, R77), of an encoded step (R79) and of an assembler
line (R84). A term of Instr needs no check: every operand has the width of its field (R75). -/

namespace Sys2Proof

/-- A command word is well formed when OP is SOCKET or COLLAR and every reserved bit of that format is 0
(R71, R72, R73, R76, R77). -/
def CmdWord.wellFormed (c : CmdWord) : Bool :=
  (c.extractLsb' 60 4 == 1#4 && c.extractLsb' 9 51 == 0#51)
    || (c.extractLsb' 60 4 == 2#4 && c.extractLsb' 50 10 == 0#10)

/-- An encoded step is well formed when it is a CMD step with a well-formed word, or another label with its
unused payload lines at 0 (R79). -/
def StepWord.wellFormed (w : StepWord) : Bool :=
  if w.label = 0#3 then CmdWord.wellFormed w.payload else w.payload == 0#64

/-- The operand ranges of the assembler: the raw field widths (R84). -/
def AsmLine.wellFormed : AsmLine → Bool
  | .socket id _ => decide (id ≤ 255)
  | .collar id ch _ intensity dur =>
      decide (id ≤ 65535) && decide (ch ≤ 255) && decide (intensity ≤ 255) && decide (dur ≤ 65535)
  | .cmd word => decide (word < 2 ^ 64)
  | .tick => true
  | .txacc => true
  | .txrej => true
  | .txdone => true
  | .sync => true
  | .status => true
  | .reset => true
  | .socketOn id => decide (id ≤ 255)
  | .socketOff id => decide (id ≤ 255)
  | .shock id ch intensity dur =>
      decide (id ≤ 65535) && decide (ch ≤ 255) && decide (intensity ≤ 255) && decide (dur ≤ 65535)
  | .vibrate id ch intensity dur =>
      decide (id ≤ 65535) && decide (ch ≤ 255) && decide (intensity ≤ 255) && decide (dur ≤ 65535)
  | .beep id ch intensity => decide (id ≤ 65535) && decide (ch ≤ 255) && decide (intensity ≤ 255)
  | .light id ch intensity => decide (id ≤ 65535) && decide (ch ≤ 255) && decide (intensity ≤ 255)
  | .xmit => true

end Sys2Proof
end

