-- ==== Sys2Proof/Decode.lean ====
section
/-! DEFINITION. The decoder of R82 and R79, total over every label and every command word, rejecting by name;
then the encoder, written from the same tables (R72, R73, R79). -/

namespace Sys2Proof

/-- Why a command word is malformed. -/
inductive Malformed where
  /-- OP is 0x0 or 0x3 to 0xF (R76). -/
  | reservedOp (op : BitVec 4)
  /-- A SOCKET word with a bit of 59:9 set (R77). -/
  | socketReservedBits
  /-- A COLLAR word with a bit of 59:50 set (R77). -/
  | collarReservedBits
  deriving DecidableEq, Repr

/-- The decoder's answer (R82): an instruction, or MALFORMED with its reason. -/
inductive Decoded where
  | instr (i : Instr)
  | malformed (why : Malformed)
  deriving DecidableEq, Repr

/-- ACT field decode (R74): all four values are defined. -/
def actionOfField (b : BitVec 2) : Action :=
  if b = 0b00#2 then .shock
  else if b = 0b01#2 then .vibrate
  else if b = 0b10#2 then .beep
  else .light

/-- The decoder of a command word (R82), fields by bit number (R72, R73, R75). -/
def decodeCommand (word : CmdWord) : Decoded :=
  let op := word.extractLsb' 60 4
  if op = 0x1#4 then
    if word.extractLsb' 9 51 = 0#51 then
      .instr (.socket (word.extractLsb' 0 8) (word.getLsbD 8))
    else .malformed .socketReservedBits
  else if op = 0x2#4 then
    if word.extractLsb' 50 10 = 0#10 then
      .instr (.collar (word.extractLsb' 0 16) (word.extractLsb' 16 8) (actionOfField (word.extractLsb' 24 2))
        (word.extractLsb' 26 8) (word.extractLsb' 34 16))
    else .malformed .collarReservedBits
  else .malformed (.reservedOp op)

/-- The decoder of an encoded step (R79): label 000 decodes its payload, every other label is a step without one.
All eight labels are defined. -/
def decode (w : StepWord) : Decoded :=
  if w.label = 0b000#3 then decodeCommand w.payload
  else if w.label = 0b001#3 then .instr .tick
  else if w.label = 0b010#3 then .instr .txAccept
  else if w.label = 0b011#3 then .instr .txReject
  else if w.label = 0b100#3 then .instr .txDone
  else if w.label = 0b101#3 then .instr .sync
  else if w.label = 0b110#3 then .instr .statusRd
  else .instr .reset

/-- The ACT field of an action (R74). -/
def fieldOfAction : Action → BitVec 2
  | .shock => 0b00#2
  | .vibrate => 0b01#2
  | .beep => 0b10#2
  | .light => 0b11#2

/-- The SOCKET word (R72): OP, 51 reserved zeros, ON, ID. -/
def socketWord (id : BitVec 8) (on : Bool) : CmdWord :=
  0x1#4 ++ 0#51 ++ BitVec.ofBool on ++ id

/-- The COLLAR word (R73): OP, 10 reserved zeros, DUR, INT, ACT, CH, ID. -/
def collarWord (id : BitVec 16) (ch : BitVec 8) (act : Action) (intensity : BitVec 8) (dur : BitVec 16) :
    CmdWord :=
  0x2#4 ++ 0#10 ++ dur ++ intensity ++ fieldOfAction act ++ ch ++ id

/-- The encoder: the label of R79 and, for a command, the word of R72 or R73. -/
def encode : Instr → StepWord
  | .socket id on => ⟨0b000#3, socketWord id on⟩
  | .collar id ch act intensity dur => ⟨0b000#3, collarWord id ch act intensity dur⟩
  | .tick => ⟨0b001#3, 0#64⟩
  | .txAccept => ⟨0b010#3, 0#64⟩
  | .txReject => ⟨0b011#3, 0#64⟩
  | .txDone => ⟨0b100#3, 0#64⟩
  | .sync => ⟨0b101#3, 0#64⟩
  | .statusRd => ⟨0b110#3, 0#64⟩
  | .reset => ⟨0b111#3, 0#64⟩

/-- The encoded step that a table word of `nbits` bits stands for: a row of 64 bits is a command word of the
command port (format CMD64, step label 000), a shorter row is a step label (format EVT3), in the low 3 bits. -/
def tableStepWord (nbits w : Nat) : StepWord :=
  if 64 ≤ nbits then ⟨0b000#3, BitVec.ofNat 64 w⟩ else ⟨BitVec.ofNat 3 w, 0#64⟩

/-- The instruction the decoder reads from a table word; none where it answers MALFORMED. -/
def decodeTableWord (nbits w : Nat) : Option Instr :=
  match decode (tableStepWord nbits w) with
  | .instr i => some i
  | .malformed _ => none

end Sys2Proof
end

