-- ==== Sys2Proof/Config.lean ====
section
/-! DEFINITION. The implementation parameters of R7. They are arguments of the model, not state; a run fixes
them (R231). The OPEN ones have no value in the spec, so the hardware's own values are constants without a body,
which no proof can see into (assumption 2). -/

namespace Sys2Proof

/-- QUEUE_DEPTH (R7, 92 D12): the capacity of the pending FIFO in waveforms. -/
inductive QueueDepth where
  | unbounded
  | finite (waveforms : Nat)
  deriving DecidableEq, Repr

/-- The parameters of R7 that a rule reads. SYNC_LATENCY and TICK_PERIOD have no number in the model (R7);
they enter as the freedom of when a SYNC and a TICK step come (R215). -/
structure Params where
  /-- CLK_HZ, in Hz. -/
  clkHz : Nat
  /-- TICK_W, in bits. -/
  tickW : Nat
  queueDepth : QueueDepth
  socketCodeOn : BitVec 20
  socketCodeOff : BitVec 20
  deriving DecidableEq, Repr

/-- How far CLK_HZ of the hardware lies above the least valid rate, 3334 Hz (R133): OPEN (92 D10). -/
opaque Config.clkHzAboveLeast : Nat

/-- How far TICK_W of the hardware lies above the least valid width for its CLK_HZ (R133): OPEN (92 D10). -/
opaque Config.tickWidthAboveLeast : Nat

/-- SOCKET_CODE_ON: OPEN (92 D11); no value may be assumed, nor that it differs from the other code (R106). -/
opaque Config.socketCodeOn : BitVec 20

/-- SOCKET_CODE_OFF: OPEN (92 D11). -/
opaque Config.socketCodeOff : BitVec 20

/-- The parameters of the hardware: every OPEN one unknown, QUEUE_DEPTH at its default UNBOUNDED (R7).
Any valid CLK_HZ and TICK_W can be written in this form. -/
def Params.hardware : Params where
  clkHz := 3334 + Config.clkHzAboveLeast
  tickW := Nat.log2 (2280 * (3334 + Config.clkHzAboveLeast) / 1000000) + 1 + Config.tickWidthAboveLeast
  queueDepth := .unbounded
  socketCodeOn := Config.socketCodeOn
  socketCodeOff := Config.socketCodeOff

end Sys2Proof
end

