-- ==== Sys2Proof/Machine/Timing.lean ====
section
/-! DEFINITION. The pulse-duration table (41_pulse_encoder.md): the microsecond constants (R130), their
conversion to clock ticks (R131), the table RESET builds (R132) and which configurations are valid (R133). -/

namespace Sys2Proof.Machine

/-- The two protocol families (R3, R22). -/
inductive Protocol where
  | socket
  | collar
  deriving DecidableEq, Repr

/-- The three pulse kinds (R22). -/
inductive PulseKind where
  | sync
  | zero
  | one
  deriving DecidableEq, Repr

/-- A pulse pair (R134): a high and a low duration. In the table and in a waveform the unit is the clock tick,
in `usConstants` the microsecond. That a duration fits in TICK_W bits is an invariant (R133). -/
structure PulsePair where
  high : Nat
  low : Nat
  deriving DecidableEq, Repr

/-- The timing constants in microseconds (R130). -/
def usConstants : Protocol → PulseKind → PulsePair
  | .socket, .sync => ⟨380, 2280⟩
  | .socket, .zero => ⟨380, 1140⟩
  | .socket, .one => ⟨1140, 380⟩
  | .collar, .sync => ⟨1400, 800⟩
  | .collar, .zero => ⟨300, 800⟩
  | .collar, .one => ⟨800, 300⟩

/-- UsToTicks (R131): exact product, truncating division. -/
def usToTicks (clkHz us : Nat) : Nat :=
  us * clkHz / 1000000

/-- Both durations of a pair converted (R132). -/
def pairToTicks (clkHz : Nat) (p : PulsePair) : PulsePair :=
  ⟨usToTicks clkHz p.high, usToTicks clkHz p.low⟩

/-- One protocol's part of the timing table (R23). -/
structure ProtocolTiming where
  sync : PulsePair
  zero : PulsePair
  one : PulsePair
  deriving DecidableEq, Repr

/-- The timing table TT (R23): twelve durations. -/
structure TimingTable where
  socket : ProtocolTiming
  collar : ProtocolTiming
  deriving DecidableEq, Repr

/-- One protocol's entry for a pulse kind. -/
def ProtocolTiming.pair (t : ProtocolTiming) : PulseKind → PulsePair
  | .sync => t.sync
  | .zero => t.zero
  | .one => t.one

/-- `TT[p][k]` (R23). -/
def TimingTable.pair (tt : TimingTable) : Protocol → PulseKind → PulsePair
  | .socket, k => tt.socket.pair k
  | .collar, k => tt.collar.pair k

/-- The entries of one protocol at a clock rate (R132). -/
def buildProtocol (clkHz : Nat) (p : Protocol) : ProtocolTiming :=
  ⟨pairToTicks clkHz (usConstants p .sync), pairToTicks clkHz (usConstants p .zero),
    pairToTicks clkHz (usConstants p .one)⟩

/-- Timing-table construction (R132). -/
def buildTable (clkHz : Nat) : TimingTable :=
  ⟨buildProtocol clkHz .socket, buildProtocol clkHz .collar⟩

/-- The six durations of one protocol. -/
def ProtocolTiming.durations (t : ProtocolTiming) : List Nat :=
  [t.sync.high, t.sync.low, t.zero.high, t.zero.low, t.one.high, t.one.low]

/-- The twelve durations of the table (R23). -/
def TimingTable.durations (tt : TimingTable) : List Nat :=
  tt.socket.durations ++ tt.collar.durations

/-- A duration that a table entry can hold: at least one tick, and no wider than TICK_W bits (R133). -/
def durationFits (tickW ticks : Nat) : Bool :=
  decide (1 ≤ ticks) && decide (ticks ≤ 2 ^ tickW - 1)

/-- Configuration validity (R133): every one of the twelve entries fits. -/
def validParams (p : Params) : Bool :=
  (buildTable p.clkHz).durations.all (durationFits p.tickW)

/-- The short form of R133 implies validity. -/
theorem validParams_of_bounds (p : Params) (hlo : 3334 ≤ p.clkHz)
    (hhi : 2280 * p.clkHz / 1000000 ≤ 2 ^ p.tickW - 1) : validParams p = true := by
  simp only [validParams, TimingTable.durations, ProtocolTiming.durations, buildTable, buildProtocol,
    pairToTicks, usConstants, usToTicks, durationFits, List.cons_append, List.nil_append, List.all_cons,
    List.all_nil, Bool.and_eq_true, decide_eq_true_eq, Bool.and_true]
  omega

/-- The hardware's parameters are valid, whatever the OPEN values are. -/
theorem hardware_valid : validParams Params.hardware = true := by
  apply validParams_of_bounds
  · simp [Params.hardware]
  · have hbit : ∀ v k : Nat, v ≤ 2 ^ (Nat.log2 v + 1 + k) - 1 := by
      intro v k
      have h : v < 2 ^ (Nat.log2 v + 1) := Nat.lt_log2_self
      have hk : 2 ^ (Nat.log2 v + 1) ≤ 2 ^ (Nat.log2 v + 1 + k) :=
        Nat.pow_le_pow_right (by omega) (by omega)
      omega
    exact hbit _ _

end Sys2Proof.Machine
end

