-- ==== Sys2Proof/Machine/State.lean ====
section
/-! DEFINITION. The state record of 10_state.md R22 (R23 to R34, and the ghost sequence of R185), with the three
fields the model adds: the configuration it carries (the argument of R7 and R37), the record of what the port
answered, and the steps still to come. Then the reasons a step can stop, and the state after RESET (R230). -/

namespace Sys2Proof.Machine

open Sys2Proof

/-- A valid configuration: R133 gives an invalid one no run and no state, so none can be written. -/
structure Config where
  params : Params
  valid : validParams params = true
  deriving DecidableEq, Repr

/-- The configuration of the hardware (assumption 2). -/
def Config.hardware : Config := ⟨Params.hardware, hardware_valid⟩

/-- A waveform (R22): a non-empty sequence of pulse pairs, the first one apart. -/
structure Waveform where
  first : PulsePair
  rest : List PulsePair
  deriving DecidableEq, Repr

/-- What a step returns at the producer's ports (R70): a CMD step an `ack`, recorded with the command it answers
(none for a malformed word), and a STATUS_RD step a STATUS word. -/
inductive PortAnswer where
  | ack (command : Option Command) (a : Ack)
  | status (word : StatusWord)
  deriving DecidableEq, Repr

/-- The state of the block. -/
structure State where
  /-- MODEL's own: the configuration argument of R7, carried because a step receives the state alone; no step
  writes it (R231, assumption 1). -/
  cfg : Config
  /-- Timing table `TT` (R23). -/
  tt : TimingTable
  /-- Pending FIFO, oldest first (R24). -/
  fifo : List Waveform
  /-- Busy flag (R25): true is Transmitting, false is Idle (R170). -/
  busy : Bool
  /-- Start handshake register `start_pending` (R26). -/
  startPending : Option Waveform
  /-- In-flight register (R27). -/
  inflight : Option Waveform
  /-- Completion-crossing bit `done_pending` (R28). -/
  donePending : Bool
  /-- Sticky fault bit `fault_tx_start` (R29). -/
  faultTxStart : Bool
  /-- Sticky fault bit `fault_overflow` (R30). -/
  faultOverflow : Bool
  /-- Sticky status bit `malformed_seen` (R31). -/
  malformedSeen : Bool
  /-- Observation `txlog` (R34): every waveform accepted since RESET. -/
  txlog : List Waveform
  /-- Ghost sequence `popped` (R185): every waveform TICK has taken from the FIFO since RESET. -/
  popped : List Waveform
  /-- MODEL's own observation: the answers returned at the producer's ports since RESET, in order
  (R70, R81, R80, assumption 5). -/
  portlog : List PortAnswer
  /-- MODEL's own input: the encoded steps the agents take next, in order (R86, R206, assumption 3). -/
  schedule : List StepWord
  deriving DecidableEq, Repr

/-- Reasons the machine stops for want of a move. No error of the block stops it (R200). -/
inductive Fault where
  /-- Raised by the step function when the schedule is empty: no agent takes a step (R21, R86).
  Safe: the model stops where nothing happens. -/
  | noStepPresented
  deriving DecidableEq, Repr

/-- Reasons a step has no meaning. -/
inductive Refusal where
  /-- Raised by an arm of the dispatch whose instruction has no meaning yet (none is left). Safe. -/
  | notModelled (mnemonic : String)
  /-- Raised by TX_ACCEPT and TX_REJECT when nothing is offered: "the transmitter cannot accept what was not
  offered" (R175, R176; 93 item 17). Unsafe towards a transmitter that breaks its contract (R211): the spec
  gives such an answer no move, so the model has no state after it. -/
  | noOfferPending
  /-- Raised by TX_DONE when nothing is in flight: "has no move in the model" (R177; 93 items 15, 16).
  Unsafe towards a transmitter that signals a spurious completion (92 D19 errs toward proving). -/
  | nothingInFlight
  /-- Raised by SYNC when no completion is in the synchronizer (R178). Safe. -/
  | noCompletionPending
  /-- CONFIG_INVALID, code 5 (R201, R133): raised by `boot` before RESET. Safe: the spec has no run there. -/
  | configInvalid
  deriving DecidableEq, Repr

/-- The state RESET leaves under a configuration, with no step to come (R230, R235). -/
def State.afterReset (cfg : Config) : State where
  cfg := cfg
  tt := buildTable cfg.params.clkHz
  fifo := []
  busy := false
  startPending := none
  inflight := none
  donePending := false
  faultTxStart := false
  faultOverflow := false
  malformedSeen := false
  txlog := []
  popped := []
  portlog := []
  schedule := []

/-- The machine right after RESET, under the hardware's configuration (R230, R234). -/
def State.reset : State := State.afterReset Config.hardware

end Sys2Proof.Machine
end

