-- ==== Sys2Proof/Machine/Operands.lean ====
section
/-! DEFINITION. The clamps and field codes of the packers (40_bitpacker.md R101 to R106) and the producer's
saturation of a value wider than its field (R240). Operand assembly (R75) is the decoder's: every field is an
unsigned slice of the command word. -/

namespace Sys2Proof.Machine

open Sys2Proof

/-- ClampChannel (R101): min(ch, 2). -/
def clampChannel (ch : BitVec 8) : Fin 3 :=
  ⟨min ch.toNat 2, by omega⟩

/-- ChannelCode (R102). Its domain is exactly {0, 1, 2}, so the INTERNAL_CODE case of R114 cannot be written. -/
def channelCode : Fin 3 → BitVec 4
  | 0 => 0b0000#4
  | 1 => 0b0001#4
  | 2 => 0b0010#4

/-- ActionCode (R103). -/
def actionCode : Action → BitVec 4
  | .shock => 0b0001#4
  | .vibrate => 0b0010#4
  | .beep => 0b0011#4
  | .light => 0b0100#4

/-- ClampIntensity (R104): min(int, 99), as an 8-bit field. -/
def clampIntensity (intensity : BitVec 8) : BitVec 8 :=
  BitVec.ofNat 8 (min intensity.toNat 99)

/-- ClampDuration (R105): clamp(d, 300, 10000), in milliseconds. -/
def clampDuration (d : Nat) : Nat :=
  max 300 (min d 10000)

/-- SocketCode (R106): the OPEN parameter the on bit selects (92 D29). -/
def socketCode (p : Params) (on : Bool) : BitVec 20 :=
  if on then p.socketCodeOn else p.socketCodeOff

/-- The field a producer presents for a value of any size (R240): the value, or the field's maximum. -/
def saturateField (width v : Nat) : BitVec width :=
  BitVec.ofNat width (min v (2 ^ width - 1))

end Sys2Proof.Machine
end

