-- ==== Sys2Proof/Machine/BitPacker.lean ====
section
/-! DEFINITION. The BitPacker (40_bitpacker.md): the Socket packet (R107), the Collar packet (R110, R111) with its
checksum (R109), and the bit sequence of a packet (R8, R10). Every function here reads only its arguments and the
two socket codes. -/

namespace Sys2Proof.Machine

open Sys2Proof

/-- `bits_N(v)` (R10): the N bits of v, most significant first. -/
def bitsOf {n : Nat} (v : BitVec n) : BitSequence :=
  (List.range n).map v.getMsbD

/-- PackSocket (R107): the action code, then the 4 low bits of the id; the high bits are dropped (R108). -/
def packSocket (p : Params) (id : BitVec 8) (on : Bool) : SocketPacket :=
  socketCode p on ++ id.extractLsb' 0 4

/-- Checksum (R109): the exact sum of four unsigned bytes, reduced modulo 256. -/
def checksum (b0 b1 b2 b3 : BitVec 8) : BitVec 8 :=
  BitVec.ofNat 8 ((b0.toNat + b1.toNat + b2.toNat + b3.toNat) % 256)

/-- PackCollar (R110): 40 bits (90 C1), the checksum over the clamped values (R112). -/
def packCollar (id : BitVec 16) (ch : BitVec 8) (act : Action) (intensity : BitVec 8) : CollarPacket :=
  let c := channelCode (clampChannel ch)
  let a := actionCode act
  let b0 := id.extractLsb' 8 8
  let b1 := id.extractLsb' 0 8
  let b2 := c ++ a
  let b3 := clampIntensity intensity
  b0 ++ b1 ++ b2 ++ b3 ++ checksum b0 b1 b2 b3

end Sys2Proof.Machine
end

