-- ==== Sys2Proof/Machine/PulseEncoder.lean ====
section
/-! DEFINITION. The PulseEncoder (41_pulse_encoder.md R134 to R141): a bit sequence to a waveform under the timing
table, and what a waveform drives. Pure in its arguments and the table (R139). -/

namespace Sys2Proof.Machine

open Sys2Proof

/-- The pulse pairs of a waveform, in order of transmission. -/
def Waveform.pairs (w : Waveform) : List PulsePair :=
  w.first :: w.rest

/-- The pulse kind of a data bit (R135). -/
def kindOfBit (b : Bool) : PulseKind :=
  if b then .one else .zero

/-- PulseEncode (R135): the sync pair, then one pair for each bit, in order. -/
def pulseEncode (tt : TimingTable) (p : Protocol) (bs : BitSequence) : Waveform :=
  ⟨tt.pair p .sync, bs.map fun b => tt.pair p (kindOfBit b)⟩

/-- SocketWave (R136). -/
def socketWave (p : Params) (tt : TimingTable) (id : BitVec 8) (on : Bool) : Waveform :=
  pulseEncode tt .socket (bitsOf (packSocket p id on))

/-- The 3 guard bits of a Collar waveform (R137), outside the packet and its checksum (90 C4). -/
def guardBits : BitSequence :=
  List.replicate 3 false

/-- CollarWave (R137). -/
def collarWave (tt : TimingTable) (id : BitVec 16) (ch : BitVec 8) (act : Action) (intensity : BitVec 8) :
    Waveform :=
  pulseEncode tt .collar (bitsOf (packCollar id ch act intensity) ++ guardBits)

/-- What the transmitter drives (R134, R211): for each pair the high level (true) for `high` ticks, then the low
level for `low` ticks. What the levels are physically is not modelled (92 D24). -/
def Waveform.levels (w : Waveform) : List (Bool × Nat) :=
  w.pairs.flatMap fun p => [(true, p.high), (false, p.low)]

/-- Airtime of a waveform in clock ticks (R141). -/
def Waveform.airtime (w : Waveform) : Nat :=
  (w.pairs.map fun p => p.high + p.low).sum

end Sys2Proof.Machine
end

