-- ==== Sys2Proof/Machine/Flags.lean ====
section
/-! DEFINITION. The status of the block: the 64-bit STATUS view (10_state.md R32), the sticky bits and how they are
set (R201, R202), and the 2-bit response code (R81). -/

namespace Sys2Proof.Machine

open Sys2Proof

/-- PENDING (R32): the FIFO's length, saturating at 2^32 - 1. -/
def pendingField (s : State) : BitVec 32 :=
  BitVec.ofNat 32 (min s.fifo.length (2 ^ 32 - 1))

/-- The five status bits 4:0 (R32): FAULT_OVERFLOW, FAULT_TX_START, MALFORMED_SEEN, EMPTY, BUSY. -/
def statusBits (s : State) : BitVec 5 :=
  BitVec.ofBool s.faultOverflow ++ BitVec.ofBool s.faultTxStart ++ BitVec.ofBool s.malformedSeen
    ++ BitVec.ofBool s.fifo.isEmpty ++ BitVec.ofBool s.busy

/-- The STATUS word (R32, R179): PENDING, reserved zeros in 31:5, the status bits. -/
def statusWord (s : State) : StatusWord :=
  pendingField s ++ 0#27 ++ statusBits s

/-- The two sticky faults that `raise Fault(name)` can set (R11, R201). -/
inductive StickyFault where
  /-- OVERFLOW, code 2. -/
  | overflow
  /-- TX_START, code 3. -/
  | txStart
  deriving DecidableEq, Repr

/-- `raise Fault(name)` (R11): set the sticky bit of that row of R201. It transfers no control and saves nothing;
the block has no trap entry and no return from one (R200, R208). -/
def raiseFault (f : StickyFault) (s : State) : State :=
  match f with
  | .overflow => { s with faultOverflow := true }
  | .txStart => { s with faultTxStart := true }

/-- The report of a malformed word in the sticky status bit (R155, R201 code 1). -/
def markMalformed (s : State) : State :=
  { s with malformedSeen := true }

/-- The 2-bit response code (R81); 0b11 is never returned. -/
def ackCode : Ack → BitVec 2
  | .ok => 0b00#2
  | .malformed => 0b01#2
  | .full => 0b10#2

end Sys2Proof.Machine
end

