-- ==== Sys2Proof/Machine/Ops.lean ====
section
/-! DEFINITION. The named operations over the state: fetching the next presented step (R86), answering at a port
(R11, R70), the only two accesses to the FIFO (R171, R172), the atomic primitives of the busy flag (R60), and the
reset of the whole record (R230). An error of the block is taken by `raiseFault` and `markMalformed` (Flags.lean):
there is no trap to enter or to return from (R200, R208). -/

namespace Sys2Proof.Machine

open Sys2Proof

/-- The next presented step, and the state with it taken off the schedule (R86). -/
def fetch (s : State) : Option (StepWord × State) :=
  match s.schedule with
  | [] => none
  | w :: rest => some (w, { s with schedule := rest })

/-- The state with a step placed where `fetch` takes the next one. -/
def presentNext (w : StepWord) (s : State) : State :=
  { s with schedule := w :: s.schedule }

/-- `ack <- code`, and the return of a STATUS word: the answer at the port, recorded in `portlog` (R11, R70). -/
def answer (a : PortAnswer) (s : State) : State :=
  { s with portlog := s.portlog ++ [a] }

/-- The capacity test of FifoPushN (R171): a FIFO of this length is within QUEUE_DEPTH. -/
def withinDepth : QueueDepth → Nat → Bool
  | .unbounded, _ => true
  | .finite d, len => decide (len ≤ d)

/-- FifoPushN (R171): all n copies at the tail, or FULL with the sticky fault OVERFLOW and the FIFO unchanged. -/
def fifoPushN (n : Nat) (w : Waveform) (s : State) : Ack × State :=
  if withinDepth s.cfg.params.queueDepth (s.fifo.length + n) then
    (.ok, { s with fifo := s.fifo ++ List.replicate n w })
  else
    (.full, raiseFault .overflow s)

/-- FifoPop (R172): the head waveform, or none without waiting. The ghost `popped` records what it took (R185). -/
def fifoPop (s : State) : Option Waveform × State :=
  match s.fifo with
  | [] => (none, s)
  | w :: rest => (some w, { s with fifo := rest, popped := s.popped ++ [w] })

/-- `CAS(busy, old, new)` (R60): whether it wrote, and the state after it. -/
def casBusy (old new : Bool) (s : State) : Bool × State :=
  if s.busy = old then (true, { s with busy := new }) else (false, s)

/-- The atomic store of 0 to the busy flag (R60), used by SYNC only. -/
def clearBusy (s : State) : State :=
  { s with busy := false }

/-- Every field of the record at its reset value (R230): the table rebuilt from CLK_HZ, all else empty or 0.
The configuration stays (R231), and so do the agents' steps still to come, which are no state of the block. -/
def resetRecord (s : State) : State where
  cfg := s.cfg
  tt := buildTable s.cfg.params.clkHz
  fifo := []
  busy := false
  startPending := none
  inflight := none
  donePending := false
  faultTxStart := false
  faultOverflow := false
  malformedSeen := false
  txlog := []
  popped := []
  portlog := []
  schedule := s.schedule

end Sys2Proof.Machine
end

