-- ==== Sys2Proof/Machine/Commands.lean ====
section
/-! DEFINITION. The CMD steps (42_commands.md): SOCKET (R151), COLLAR (R152) with its repeat count (R153, R154),
and the malformed word (R155). A CMD step is enabled in every state (R156). -/

namespace Sys2Proof.Machine

open Sys2Proof

/-- How many copies a SOCKET command enqueues (R158). -/
def socketCopies : Nat := 10

/-- The duration input of RepeatCount (R154): Beep and Light use 0 whatever DUR holds. -/
def durationInput : Action → BitVec 16 → Nat
  | .shock, dur => dur.toNat
  | .vibrate, dur => dur.toNat
  | .beep, _ => 0
  | .light, _ => 0

/-- RepeatCount (R153): the clamped duration over 50 ms, halves rounded up (92 D8). -/
def repeatCount (act : Action) (dur : BitVec 16) : Nat :=
  max 1 ((clampDuration (durationInput act dur) + 25) / 50)

/-- The waveform of a command (R151, R152). -/
def Command.waveform (p : Params) (tt : TimingTable) : Command → Waveform
  | .socket id on => socketWave p tt id on
  | .collar id ch act intensity _ => collarWave tt id ch act intensity

/-- The repeat count of a command (R13, R153, R158). -/
def Command.copies : Command → Nat
  | .socket _ _ => socketCopies
  | .collar _ _ act _ dur => repeatCount act dur

/-- A well-formed command, encoded and enqueued in one atomic step, with its one `ack` (R150, R207). -/
def enqueueCommand (c : Command) (s : State) : State :=
  let r := fifoPushN (Command.copies c) (Command.waveform s.cfg.params s.tt c) s
  answer (.ack (some c) r.1) r.2

/-- SOCKET (R151). -/
def execSocket (id : BitVec 8) (on : Bool) (s : State) : Host.Outcome State Fault Refusal :=
  .next (enqueueCommand (.socket id on) s)

/-- COLLAR (R152). -/
def execCollar (id : BitVec 16) (ch : BitVec 8) (act : Action) (intensity : BitVec 8) (dur : BitVec 16)
    (s : State) : Host.Outcome State Fault Refusal :=
  .next (enqueueCommand (.collar id ch act intensity dur) s)

/-- A malformed word (R155): reported by `ack` and in `malformed_seen`; nothing is enqueued and nothing stops. -/
def execMalformed (s : State) : Host.Outcome State Fault Refusal :=
  .next (answer (.ack none .malformed) (markMalformed s))

end Sys2Proof.Machine
end

