-- ==== Sys2Proof/Machine/Queue.lean ====
section
/-! DEFINITION. The Dispatcher (TICK, R173), the transmitter's steps (R175 to R177), the completion synchronizer
(SYNC, R178) and the producer's status read (R179). A step that is not enabled has no move (R183): it is refused
under a name of its own. -/

namespace Sys2Proof.Machine

open Sys2Proof

/-- TICK (R173): when Idle with work, set busy, pop the head and offer it; otherwise nothing changes. -/
def execTick (s : State) : Host.Outcome State Fault Refusal :=
  if s.busy = false ∧ s.fifo ≠ [] then
    let claimed := casBusy false true s
    let popped := fifoPop claimed.2
    .next { popped.2 with startPending := popped.1 }
  else
    .next s

/-- TX_ACCEPT (R175), enabled when a waveform is offered. -/
def execTxAccept (s : State) : Host.Outcome State Fault Refusal :=
  match s.startPending with
  | none => .refused .noOfferPending
  | some w => .next { s with startPending := none, inflight := some w, txlog := s.txlog ++ [w] }

/-- TX_REJECT (R176), enabled when a waveform is offered: it is discarded, TX_START is raised, busy stays 1. -/
def execTxReject (s : State) : Host.Outcome State Fault Refusal :=
  match s.startPending with
  | none => .refused .noOfferPending
  | some _ => .next (raiseFault .txStart { s with startPending := none })

/-- TX_DONE (R177), enabled when a waveform is in flight: the completion enters the synchronizer. -/
def execTxDone (s : State) : Host.Outcome State Fault Refusal :=
  match s.inflight with
  | none => .refused .nothingInFlight
  | some _ => .next { s with inflight := none, donePending := true }

/-- SYNC (R178), enabled when a completion is pending: it clears the busy flag. -/
def execSync (s : State) : Host.Outcome State Fault Refusal :=
  if s.donePending then .next (clearBusy { s with donePending := false }) else .refused .noCompletionPending

/-- STATUS_RD (R179): returns the STATUS word and writes no state of the block. -/
def execStatusRd (s : State) : Host.Outcome State Fault Refusal :=
  .next (answer (.status (statusWord s)) s)

end Sys2Proof.Machine
end

