-- ==== Sys2Proof/Machine/ResetStep.lean ====
section
/-! DEFINITION. The reset source: RESET (70_reset_and_hazards.md R230) and the start of a run from a chosen
configuration (R234), which is refused when the configuration is invalid (R133, R201 code 5). -/

namespace Sys2Proof.Machine

open Sys2Proof

/-- RESET (R230): enabled always; a waveform in the FIFO, offered or in flight is discarded (R233). -/
def execReset (s : State) : Host.Outcome State Fault Refusal :=
  .next (resetRecord s)

/-- Boot (R234): choose a configuration, take RESET, then the agents' steps follow. A configuration that breaks
R133 has no run (CONFIG_INVALID). -/
def boot (p : Params) (steps : List StepWord) : Host.Outcome State Fault Refusal :=
  if h : validParams p = true then
    .next { State.afterReset ⟨p, h⟩ with schedule := steps }
  else
    .refused .configInvalid

end Sys2Proof.Machine
end

