-- ==== Sys2Proof/Machine/Dispatch.lean ====
section
/-! DEFINITION. One arm per instruction: the meaning it has. -/

namespace Sys2Proof.Machine

open Sys2Proof

-- The command port (R150), then the other step labels in the order of R79.
def exec (i : Instr) (s : State) : Host.Outcome State Fault Refusal :=
  match i with
  | .socket id on => Sys2Proof.Machine.execSocket id on s
  | .collar id ch act intensity dur => Sys2Proof.Machine.execCollar id ch act intensity dur s
  | .tick => Sys2Proof.Machine.execTick s
  | .txAccept => Sys2Proof.Machine.execTxAccept s
  | .txReject => Sys2Proof.Machine.execTxReject s
  | .txDone => Sys2Proof.Machine.execTxDone s
  | .sync => Sys2Proof.Machine.execSync s
  | .statusRd => Sys2Proof.Machine.execStatusRd s
  | .reset => Sys2Proof.Machine.execReset s

end Sys2Proof.Machine
end

