-- ==== Sys2Proof/Machine/Step.lean ====
section
/-! DEFINITION. One step: the next presented step is fetched, decoded and run as one atomic transition (R58, R86).
A malformed command word runs as R155 says. -/

namespace Sys2Proof.Machine

open Sys2Proof

/-- One encoded step taken in a state (R79, R150). -/
def runWord (w : StepWord) (s : State) : Host.Outcome State Fault Refusal :=
  match decode w with
  | .instr i => exec i s
  | .malformed _ => execMalformed s

/-- One step of the machine: the next step of the schedule (R86). -/
def step (s : State) : Host.Outcome State Fault Refusal :=
  match fetch s with
  | none => .fault .noStepPresented
  | some (w, t) => runWord w t

/-- The state with a table word placed as the very next step. -/
def State.withFetchWord (s : State) (nbits w : Nat) : State :=
  presentNext (tableStepWord nbits w) s

end Sys2Proof.Machine
end

