-- ==== Sys2Proof/Machine/Agents.lean ====
section
/-! DEFINITION. The five agents (R12, R212), whose step each label is (R79), and when a step is enabled (the
'Enabled when' line of each step's rule). -/

namespace Sys2Proof.Machine

open Sys2Proof

/-- The agents of R212. -/
inductive Agent where
  | producer
  | dispatcher
  | transmitter
  | synchronizer
  | resetSource
  deriving DecidableEq, Repr

/-- The agent that takes a step of this label (R79). -/
def agentOfLabel (e : Label) : Agent :=
  if e = 0b000#3 then .producer
  else if e = 0b001#3 then .dispatcher
  else if e = 0b010#3 then .transmitter
  else if e = 0b011#3 then .transmitter
  else if e = 0b100#3 then .transmitter
  else if e = 0b101#3 then .synchronizer
  else if e = 0b110#3 then .producer
  else .resetSource

/-- When an instruction is enabled: CMD (R150), TICK (R173), TX_ACCEPT (R175), TX_REJECT (R176), TX_DONE (R177),
SYNC (R178), STATUS_RD (R179), RESET (R230). -/
def enabled (i : Instr) (s : State) : Bool :=
  match i with
  | .socket _ _ => true
  | .collar _ _ _ _ _ => true
  | .tick => true
  | .txAccept => s.startPending.isSome
  | .txReject => s.startPending.isSome
  | .txDone => s.inflight.isSome
  | .sync => s.donePending
  | .statusRd => true
  | .reset => true

end Sys2Proof.Machine
end

