-- ==== Sys2Proof/Machine/Assembler.lean ====
section
/-! DEFINITION. The assembler (30_encoding.md R84, R85) and the program listing (R86): reading a source line,
refusing an operand outside its field's range, expanding the pseudo-instructions, and writing an encoded step as a
listing line. Text is a list of characters. -/

namespace Sys2Proof.Machine

open Sys2Proof

/-- Why a line is refused (R84: "An assembler refuses an operand outside its field's range"). -/
inductive AsmError where
  | operandOutOfRange
  | unknownMnemonic
  | badOperands
  deriving DecidableEq, Repr

/-- What an assembler answers. -/
inductive Assembled where
  | steps (ws : List StepWord)
  | error (e : AsmError)
  deriving DecidableEq, Repr

/-- A CMD step presenting a word (R79). -/
def cmdStep (word : CmdWord) : StepWord := ⟨0b000#3, word⟩

/-- The SOCKET step of in-range operands (R72, R84). -/
def asmSocket (id : Nat) (on : Bool) : List StepWord :=
  [encode (.socket (BitVec.ofNat 8 id) on)]

/-- The COLLAR step of in-range operands (R73, R84). -/
def asmCollar (id ch : Nat) (act : Action) (intensity dur : Nat) : List StepWord :=
  [encode (.collar (BitVec.ofNat 16 id) (BitVec.ofNat 8 ch) act (BitVec.ofNat 8 intensity) (BitVec.ofNat 16 dur))]

/-- The steps of a line whose operands are in range: R84, and the expansions of R85. DESIGN CHOICE (assumption 19): R85
calls XMIT stuck at its TXACC in every state but Idle with work; with an offer already pending R175 enables TX_ACCEPT, and
the model follows R175, so the four steps run to their end there. -/
def expandLine : AsmLine → List StepWord
  | .socket id on => asmSocket id on
  | .collar id ch act intensity dur => asmCollar id ch act intensity dur
  | .cmd word => [cmdStep (BitVec.ofNat 64 word)]
  | .tick => [encode .tick]
  | .txacc => [encode .txAccept]
  | .txrej => [encode .txReject]
  | .txdone => [encode .txDone]
  | .sync => [encode .sync]
  | .status => [encode .statusRd]
  | .reset => [encode .reset]
  | .socketOn id => asmSocket id true
  | .socketOff id => asmSocket id false
  | .shock id ch intensity dur => asmCollar id ch .shock intensity dur
  | .vibrate id ch intensity dur => asmCollar id ch .vibrate intensity dur
  | .beep id ch intensity => asmCollar id ch .beep intensity 0
  | .light id ch intensity => asmCollar id ch .light intensity 0
  | .xmit => [encode .tick, encode .txAccept, encode .txDone, encode .sync]

/-- Assemble one line: an operand out of range is refused, never truncated (R84). -/
def assemble (l : AsmLine) : Assembled :=
  if l.wellFormed then .steps (expandLine l) else .error .operandOutOfRange

/-- Drop a comment, which starts with `;` (R84). -/
def dropComment (cs : List Char) : List Char :=
  cs.takeWhile (· != ';')

/-- Cut a line into words at spaces, tabs, carriage returns and commas: DESIGN CHOICE (assumption 11). -/
def wordsOf : List Char → List (List Char)
  | [] => []
  | c :: cs =>
    if c == ' ' || c == '\t' || c == '\r' || c == ',' then
      [] :: wordsOf cs
    else
      match wordsOf cs with
      | [] => [[c]]
      | w :: ws => (c :: w) :: ws

/-- A letter in upper case: mnemonics are case-insensitive (R84), and in the model every other word too (assumption 11). -/
def upperChar (c : Char) : Char :=
  if 97 ≤ c.toNat ∧ c.toNat ≤ 122 then Char.ofNat (c.toNat - 32) else c

/-- The value of a digit in a base of at most 16. -/
def digitValue (base : Nat) (c : Char) : Option Nat :=
  let v :=
    if 48 ≤ c.toNat ∧ c.toNat ≤ 57 then c.toNat - 48
    else if 65 ≤ c.toNat ∧ c.toNat ≤ 70 then c.toNat - 55
    else base
  if v < base then some v else none

/-- The value of a non-empty string of digits. -/
def digitsValue (base : Nat) : List Char → Option Nat
  | [] => none
  | c :: cs => (c :: cs).foldl (fun acc d => match acc, digitValue base d with
      | some n, some v => some (n * base + v)
      | _, _ => none) (some 0)

/-- A number: decimal, or hexadecimal with `0x` (R84), already in upper case, so that `0X` and digits of either case are
read too: DESIGN CHOICE (assumption 11). -/
def numberOf : List Char → Option Nat
  | '0' :: 'X' :: cs => digitsValue 16 cs
  | cs => digitsValue 10 cs

/-- The action names of the COLLAR line (R84). -/
def actionOfName (w : List Char) : Option Action :=
  if w = ['S', 'H', 'O', 'C', 'K'] then some .shock
  else if w = ['V', 'I', 'B', 'R', 'A', 'T', 'E'] then some .vibrate
  else if w = ['B', 'E', 'E', 'P'] then some .beep
  else if w = ['L', 'I', 'G', 'H', 'T'] then some .light
  else none

/-- The ON or OFF operand of the SOCKET line (R84). -/
def onOfName (w : List Char) : Option Bool :=
  if w = ['O', 'N'] then some true
  else if w = ['O', 'F', 'F'] then some false
  else none

/-- The line of a mnemonic with no operand (R84, R85). -/
def plainLine (m : List Char) : Option AsmLine :=
  if m = ['T', 'I', 'C', 'K'] then some .tick
  else if m = ['T', 'X', 'A', 'C', 'C'] then some .txacc
  else if m = ['T', 'X', 'R', 'E', 'J'] then some .txrej
  else if m = ['T', 'X', 'D', 'O', 'N', 'E'] then some .txdone
  else if m = ['S', 'Y', 'N', 'C'] then some .sync
  else if m = ['S', 'T', 'A', 'T', 'U', 'S'] then some .status
  else if m = ['R', 'E', 'S', 'E', 'T'] then some .reset
  else if m = ['X', 'M', 'I', 'T'] then some .xmit
  else none

/-- The line of a mnemonic with one number (R84, R85). -/
def oneNumberLine (m : List Char) (n : Nat) : Option AsmLine :=
  if m = ['.', 'C', 'M', 'D'] then some (.cmd n)
  else if m = ['S', 'O', 'C', 'K', 'E', 'T', '_', 'O', 'N'] then some (.socketOn n)
  else if m = ['S', 'O', 'C', 'K', 'E', 'T', '_', 'O', 'F', 'F'] then some (.socketOff n)
  else none

/-- The pseudo-instruction of a mnemonic with three numbers (R85). -/
def threeNumberLine (m : List Char) (id ch intensity : Nat) : Option AsmLine :=
  if m = ['B', 'E', 'E', 'P'] then some (.beep id ch intensity)
  else if m = ['L', 'I', 'G', 'H', 'T'] then some (.light id ch intensity)
  else none

/-- The pseudo-instruction of a mnemonic with four numbers (R85). -/
def fourNumberLine (m : List Char) (id ch intensity dur : Nat) : Option AsmLine :=
  if m = ['S', 'H', 'O', 'C', 'K'] then some (.shock id ch intensity dur)
  else if m = ['V', 'I', 'B', 'R', 'A', 'T', 'E'] then some (.vibrate id ch intensity dur)
  else none

/-- The SOCKET and COLLAR lines (R84). -/
def commandLine (m : List Char) (ops : List (List Char)) : Option AsmLine :=
  match ops with
  | [id, on] =>
    if m = ['S', 'O', 'C', 'K', 'E', 'T'] then
      match numberOf id, onOfName on with
      | some n, some b => some (.socket n b)
      | _, _ => none
    else none
  | [id, ch, act, intensity, dur] =>
    if m = ['C', 'O', 'L', 'L', 'A', 'R'] then
      match numberOf id, numberOf ch, actionOfName act, numberOf intensity, numberOf dur with
      | some n, some c, some a, some i, some d => some (.collar n c a i d)
      | _, _, _, _, _ => none
    else none
  | _ => none

/-- The line of a mnemonic whose operands are all numbers. -/
def numericLine (m : List Char) (ops : List (List Char)) : Option AsmLine :=
  match ops.map numberOf with
  | [] => plainLine m
  | [some a] => oneNumberLine m a
  | [some a, some b, some c] => threeNumberLine m a b c
  | [some a, some b, some c, some d] => fourNumberLine m a b c d
  | _ => none

/-- What a source line holds. -/
inductive ParsedLine where
  | blank
  | line (l : AsmLine)
  | error (e : AsmError)
  deriving DecidableEq, Repr

/-- Every mnemonic of R84 and R85, in upper case. -/
def mnemonics : List (List Char) :=
  [['S', 'O', 'C', 'K', 'E', 'T'], ['C', 'O', 'L', 'L', 'A', 'R'], ['.', 'C', 'M', 'D'], ['T', 'I', 'C', 'K'],
   ['T', 'X', 'A', 'C', 'C'], ['T', 'X', 'R', 'E', 'J'], ['T', 'X', 'D', 'O', 'N', 'E'], ['S', 'Y', 'N', 'C'],
   ['S', 'T', 'A', 'T', 'U', 'S'], ['R', 'E', 'S', 'E', 'T'], ['S', 'O', 'C', 'K', 'E', 'T', '_', 'O', 'N'],
   ['S', 'O', 'C', 'K', 'E', 'T', '_', 'O', 'F', 'F'], ['S', 'H', 'O', 'C', 'K'],
   ['V', 'I', 'B', 'R', 'A', 'T', 'E'], ['B', 'E', 'E', 'P'], ['L', 'I', 'G', 'H', 'T'], ['X', 'M', 'I', 'T']]

/-- Read one source line (R84). DESIGN CHOICE (assumption 11): R84 makes mnemonics case-insensitive and says nothing of the
other words; every word is put in upper case, so ON and OFF, the action names, hexadecimal digits and the `0x` mark are
case-insensitive too. -/
def parseLine (cs : List Char) : ParsedLine :=
  match ((wordsOf (dropComment cs)).filter (· != [])).map (·.map upperChar) with
  | [] => .blank
  | m :: ops =>
    if m ∈ mnemonics then
      match commandLine m ops, numericLine m ops with
      | some l, _ => .line l
      | none, some l => .line l
      | none, none => .error .badOperands
    else .error .unknownMnemonic

/-- Assemble a program, a list of source lines, into the schedule it lists (R84, R86); the first refused line
refuses it all. -/
def assembleProgram : List (List Char) → Assembled
  | [] => .steps []
  | cs :: rest =>
    match parseLine cs with
    | .blank => assembleProgram rest
    | .error e => .error e
    | .line l =>
      match assemble l, assembleProgram rest with
      | .steps ws, .steps more => .steps (ws ++ more)
      | .steps _, .error e => .error e
      | .error e, _ => .error e

/-- A hexadecimal digit, upper case. -/
def hexDigit (v : BitVec 4) : Char :=
  if v.toNat < 10 then Char.ofNat (48 + v.toNat) else Char.ofNat (55 + v.toNat)

/-- A listing line (R86): the 3-bit label and, for CMD, the 64-bit payload in hexadecimal. -/
def listingLine (w : StepWord) : List Char :=
  let label := (List.range 3).map fun k => if w.label.getMsbD k then '1' else '0'
  if w.label = 0b000#3 then
    label ++ ' ' :: (List.range 16).map fun k => hexDigit (w.payload.extractLsb' (60 - 4 * k) 4)
  else label

end Sys2Proof.Machine
end

