-- ==== Sys2Proof/Safety.lean ====
section
/-! DEFINITION. The terms claims are stated in: finite schedules of steps, the invariants of R35 and R185 and those
of the sticky bits, the table and the capacity, and infinite runs with the fairness of R215. -/

namespace Sys2Proof.Machine

open Sys2Proof

/-- A finite schedule taken from a state, up to the first step that has no move (R86). -/
def runWords : List StepWord → State → Host.Outcome State Fault Refusal
  | [], s => .next s
  | w :: ws, s =>
    match runWord w s with
    | .next t => runWords ws t
    | .fault r => .fault r
    | .refused r => .refused r

/-- How many of the three places between the FIFO head and the end of a transmission are taken (R35 item 1). -/
def placesTaken (s : State) : Nat :=
  s.startPending.isSome.toNat + s.inflight.isSome.toNat + s.donePending.toNat

/-- The handshake invariant (R35): its items 1 and 2, and that after a failed start nothing is pending, which
makes them inductive. -/
structure HandshakeInv (s : State) : Prop where
  exclusive : placesTaken s ≤ 1
  busy_iff : s.busy = (s.startPending.isSome || s.inflight.isSome || s.donePending || s.faultTxStart)
  fault_quiet : s.faultTxStart = true → placesTaken s = 0

/-- The copies a port answer stands for: those of a command answered OK, else none (R185). -/
def copiesOf (p : Params) (tt : TimingTable) : PortAnswer → List Waveform
  | .ack (some c) .ok => List.replicate (Command.copies c) (Command.waveform p tt c)
  | .ack (some _) .full => []
  | .ack (some _) .malformed => []
  | .ack none _ => []
  | .status _ => []

/-- Every waveform enqueued since RESET, in command order (R185 item 1). -/
def enqueuedSinceReset (s : State) : List Waveform :=
  s.portlog.flatMap (copiesOf s.cfg.params s.tt)

/-- FIFO integrity (R185 item 1): nothing is lost, duplicated or reordered. -/
def FifoConserved (s : State) : Prop :=
  s.popped ++ s.fifo = enqueuedSinceReset s

/-- What `txlog` lacks of `popped` (R185 item 2), and which waveform the transmitter holds. -/
structure TxlogInv (s : State) : Prop where
  offered : ∀ w, s.startPending = some w → s.popped = s.txlog ++ [w]
  rejected : s.faultTxStart = true → ∃ w, s.popped = s.txlog ++ [w]
  settled : s.startPending = none → s.faultTxStart = false → s.popped = s.txlog
  holding : ∀ w, s.inflight = some w → s.txlog.getLast? = some w
  finished : s.donePending = true → s.txlog ≠ []

/-- The table is the one RESET builds (R23, R132). -/
def TableInv (s : State) : Prop :=
  s.tt = buildTable s.cfg.params.clkHz

/-- The FIFO is within a finite QUEUE_DEPTH, and OVERFLOW is never set when it is UNBOUNDED (R24, R30). -/
structure DepthInv (s : State) : Prop where
  within : ∀ d, s.cfg.params.queueDepth = .finite d → s.fifo.length ≤ d
  no_overflow : s.cfg.params.queueDepth = .unbounded → s.faultOverflow = false

/-- An answer MALFORMED, and an answer FULL. -/
def isMalformedAck : PortAnswer → Bool
  | .ack _ .malformed => true
  | .ack _ .ok => false
  | .ack _ .full => false
  | .status _ => false

/-- An answer FULL (R81). -/
def isFullAck : PortAnswer → Bool
  | .ack _ .full => true
  | .ack _ .ok => false
  | .ack _ .malformed => false
  | .status _ => false

/-- The two report bits say whether such an answer was given since RESET (R30, R31, R202). -/
structure ReportInv (s : State) : Prop where
  malformed : s.malformedSeen = s.portlog.any isMalformedAck
  overflow : s.faultOverflow = s.portlog.any isFullAck

/-- All the invariants of the block. -/
structure BlockInv (s : State) : Prop where
  handshake : HandshakeInv s
  conserved : FifoConserved s
  txlog : TxlogInv s
  table : TableInv s
  depth : DepthInv s
  report : ReportInv s

/-- An infinite run (R58): the states, and the encoded step each takes to the next. -/
def IsRun (σ : Nat → State) (e : Nat → StepWord) : Prop :=
  ∀ n, runWord (e n) (σ n) = .next (σ (n + 1))

/-- Weak fairness of TICK, which is always enabled (R215). -/
def TickFair (e : Nat → StepWord) : Prop :=
  ∀ n, ∃ m, n ≤ m ∧ decode (e m) = .instr .tick

/-- Weak fairness of SYNC (R215): enabled from some point on, it is taken. -/
def SyncFair (σ : Nat → State) (e : Nat → StepWord) : Prop :=
  ∀ n, (∀ m, n ≤ m → (σ m).donePending = true) → ∃ m, n ≤ m ∧ decode (e m) = .instr .sync

/-- What a place holds at point n is still there at every point up to a later step `i`, which is the one that
ends it: nothing else has taken it away before (used for TX_FAIR, R215). -/
def EndsWith (place : State → Option Waveform) (i : Instr) (σ : Nat → State) (e : Nat → StepWord)
    (n : Nat) (w : Waveform) : Prop :=
  ∃ m, n ≤ m ∧ decode (e m) = .instr i ∧ ∀ k, n ≤ k → k ≤ m → place (σ k) = some w

/-- TX_FAIR (R215): every offer is eventually answered by TX_ACCEPT, and every accepted waveform eventually has
its TX_DONE. The answer is that offer's own, and the completion that waveform's own: an offer that a TX_REJECT or a
RESET takes away, and a waveform in flight that a RESET stops (R233), never gets it, so a run with one is not fair
(assumption 20). -/
structure TxFair (σ : Nat → State) (e : Nat → StepWord) : Prop where
  accepts : ∀ n w, (σ n).startPending = some w → EndsWith State.startPending .txAccept σ e n w
  finishes : ∀ n w, (σ n).inflight = some w → EndsWith State.inflight .txDone σ e n w

end Sys2Proof.Machine
end

