-- ==== Sys2Proof/Certificates/Slice0/Obligations.lean ====
section
/-! DEFINITION. The statements. Each docstring names the rule of the spec it formalises; free Lean variables are
bound over every state, word and operand, so no form is left out. -/

open Sys2Proof Sys2Proof.Machine

/-! ### Encoding -/

/-- Words written out from the formats R72, R73 and R79 decode as 95 V6 and R79 say: all fourteen rows of V6, of which five
are malformed, and the seven labels without payload. The names of the reasons are the model's own (assumption 10, DESIGN
CHOICE), and that a label without payload decodes alike under all payload lines p is read from R79 (assumption 4,
DEDUCED). -/
def Obligations.DecodeReadsTheSpecWords : Prop :=
  decodeCommand 0x1000000000000103#64 = .instr (.socket 3#8 true)
  ∧ decodeCommand 0x100000000000001F#64 = .instr (.socket 0x1F#8 false)
  ∧ decodeCommand 0x10000000000001FF#64 = .instr (.socket 0xFF#8 true)
  ∧ decodeCommand 0x2000000000000000#64 = .instr (.collar 0#16 0#8 .shock 0#8 0#16)
  ∧ decodeCommand 0x20000FA12C01ABCD#64 = .instr (.collar 0xABCD#16 1#8 .shock 75#8 1000#16)
  ∧ decodeCommand 0x20000000CA0104D2#64 = .instr (.collar 1234#16 1#8 .beep 50#8 0#16)
  ∧ decodeCommand 0x2003FFFFFFFFFFFF#64 = .instr (.collar 0xFFFF#16 255#8 .light 255#8 65535#16)
  ∧ decodeCommand 0x200007D18D020102#64 = .instr (.collar 0x0102#16 2#8 .vibrate 99#8 500#16)
  ∧ decodeCommand 0x20013883200704D2#64 = .instr (.collar 1234#16 7#8 .shock 200#8 20000#16)
  ∧ decodeCommand 0x1000000000000303#64 = .malformed .socketReservedBits
  ∧ decodeCommand 0x2004000000000000#64 = .malformed .collarReservedBits
  ∧ decodeCommand 0x0000000000000000#64 = .malformed (.reservedOp 0#4)
  ∧ decodeCommand 0x3000000000000000#64 = .malformed (.reservedOp 3#4)
  ∧ decodeCommand 0xF000000000000000#64 = .malformed (.reservedOp 0xF#4)
  ∧ (∀ p : CmdWord, decode ⟨0b001#3, p⟩ = .instr .tick ∧ decode ⟨0b010#3, p⟩ = .instr .txAccept
      ∧ decode ⟨0b011#3, p⟩ = .instr .txReject ∧ decode ⟨0b100#3, p⟩ = .instr .txDone
      ∧ decode ⟨0b101#3, p⟩ = .instr .sync ∧ decode ⟨0b110#3, p⟩ = .instr .statusRd
      ∧ decode ⟨0b111#3, p⟩ = .instr .reset)

/-- Decoding an encoded instruction gives it back, with every operand (R72, R73, R75, R79, R82). -/
def Obligations.DecodeInvertsEncode : Prop :=
  ∀ i : Instr, decode (encode i) = .instr i

/-- A step that decodes to an instruction is that instruction's encoding, bit for bit but for the payload lines of the
seven labels without payload, which the decoder does not read (R79, R82, assumption 4, DEDUCED). -/
def Obligations.EncodeInvertsDecode : Prop :=
  ∀ (w : StepWord) (i : Instr), decode w = .instr i → encode i = w.canonical

/-- A command word decodes to SOCKET, or to COLLAR, exactly when it matches that row of the opcode table (R72, R73). -/
def Obligations.CommandWordsMatchTheOpcodeTable : Prop :=
  ∀ w : CmdWord,
    ((∃ id on, decodeCommand w = .instr (.socket id on)) ↔ w &&& 0xFFFFFFFFFFFFFE00#64 = 0x1000000000000000#64)
    ∧ ((∃ id ch act intensity dur, decodeCommand w = .instr (.collar id ch act intensity dur)) ↔
        w &&& 0xFFFC000000000000#64 = 0x2000000000000000#64)

/-- The decoder accepts exactly the steps that are well formed once the payload lines of a label without payload are put
to 0, since it does not read those lines (assumption 4, DEDUCED): every label but CMD, and CMD with a well-formed word; every
other command word is malformed (R76, R77, R79). -/
def Obligations.DecoderAcceptsExactlyTheWellFormedSteps : Prop :=
  ∀ w : StepWord, (∃ i, decode w = .instr i) ↔ w.canonical.wellFormed = true

/-! ### The packers -/

/-- The Collar packet layout, bit 39 first on the air (R111). -/
def Obligations.CollarPacketLayout : Prop :=
  ∀ (id : BitVec 16) (ch : BitVec 8) (act : Action) (intensity : BitVec 8),
    let p := packCollar id ch act intensity
    p.extractLsb' 24 16 = id
    ∧ p.extractLsb' 20 4 = channelCode (clampChannel ch)
    ∧ p.extractLsb' 16 4 = actionCode act
    ∧ p.extractLsb' 8 8 = clampIntensity intensity
    ∧ p.extractLsb' 0 8 =
        checksum (p.extractLsb' 32 8) (p.extractLsb' 24 8) (p.extractLsb' 16 8) (p.extractLsb' 8 8)
    ∧ (bitsOf p).length = 40
    ∧ ∀ k, k < 40 → (bitsOf p)[k]? = some (p.getLsbD (39 - k))

/-- The derived properties of every Collar packet (R113). -/
def Obligations.CollarPacketProperties : Prop :=
  ∀ (id : BitVec 16) (ch : BitVec 8) (act : Action) (intensity : BitVec 8),
    let p := packCollar id ch act intensity
    p.getLsbD 15 = false
    ∧ p.extractLsb' 22 2 = 0b00#2
    ∧ p.extractLsb' 16 4 ∈ [0b0001#4, 0b0010#4, 0b0011#4, 0b0100#4]
    ∧ ((p.extractLsb' 32 8).toNat + (p.extractLsb' 24 8).toNat + (p.extractLsb' 16 8).toNat
        + (p.extractLsb' 8 8).toNat) % 256 = (p.extractLsb' 0 8).toNat

/-- The checksum is the exact sum of four unsigned bytes modulo 256, and the largest sum of a Collar packet is 645,
which the command with id 0xFFFF, channel 2, Light, intensity 99 reaches (R109). -/
def Obligations.ChecksumIsTheSumModulo256 : Prop :=
  (∀ b0 b1 b2 b3 : BitVec 8,
    (checksum b0 b1 b2 b3).toNat = (b0.toNat + b1.toNat + b2.toNat + b3.toNat) % 256)
  ∧ (∀ (id : BitVec 16) (ch : BitVec 8) (act : Action) (intensity : BitVec 8),
      (id.extractLsb' 8 8).toNat + (id.extractLsb' 0 8).toNat
        + (channelCode (clampChannel ch) ++ actionCode act).toNat + (clampIntensity intensity).toNat ≤ 645)
  ∧ ((0xFFFF#16).extractLsb' 8 8).toNat + ((0xFFFF#16).extractLsb' 0 8).toNat
        + (channelCode (clampChannel 2#8) ++ actionCode .light).toNat + (clampIntensity 99#8).toNat = 645
  ∧ checksum 0xFF#8 0xFF#8 0x24#8 0x63#8 = 0x85#8
  ∧ checksum 0x04#8 0xD2#8 0x13#8 0x32#8 = 0x1B#8

/-- The Socket packet (R107): the code of the on bit, then the 4 low bits of the id, 24 bits in all, the most
significant one first. -/
def Obligations.SocketPacketLayout : Prop :=
  ∀ (p : Params) (id : BitVec 8) (on : Bool),
    (packSocket p id on).extractLsb' 4 20 = (if on then p.socketCodeOn else p.socketCodeOff)
    ∧ (packSocket p id on).extractLsb' 0 4 = id.extractLsb' 0 4
    ∧ (bitsOf (packSocket p id on)).length = 24
    ∧ ∀ k, k < 24 → (bitsOf (packSocket p id on))[k]? = some ((packSocket p id on).getLsbD (23 - k))

/-- Socket id truncation (R108): two ids give one packet exactly when their low nibbles agree, and then the two
commands complete alike in every state, with the same response and the same flags: no high bit is rejected, clamped or
flagged. The port record, the model's own (assumption 5), shows the response. -/
def Obligations.SocketPacketUsesTheLowNibbleOnly : Prop :=
  (∀ (p : Params) (id id' : BitVec 8) (on : Bool),
    packSocket p id on = packSocket p id' on ↔ id.toNat % 16 = id'.toNat % 16)
  ∧ ∀ (id id' : BitVec 8) (on : Bool) (s : State), id.toNat % 16 = id'.toNat % 16 → ∃ (t : State) (a : Ack),
      exec (.socket id on) s = .next { t with portlog := s.portlog ++ [.ack (some (.socket id on)) a] }
      ∧ exec (.socket id' on) s = .next { t with portlog := s.portlog ++ [.ack (some (.socket id' on)) a] }
      ∧ a ≠ .malformed ∧ t.malformedSeen = s.malformedSeen

/-- The clamps and the field codes (R101 to R105, R74): the channel code is zext_4(min(ch, 2)), the action code is
zext_4(ACT) + 1, the intensity is min(int, 99) and the duration clamp(d, 300, 10000). -/
def Obligations.ClampsAndFieldCodes : Prop :=
  (∀ ch : BitVec 8, (clampChannel ch).val = min ch.toNat 2
    ∧ (channelCode (clampChannel ch)).toNat = min ch.toNat 2)
  ∧ (∀ i : BitVec 8, (clampIntensity i).toNat = min i.toNat 99)
  ∧ (∀ d : BitVec 16, clampDuration d.toNat = max 300 (min d.toNat 10000)
      ∧ 300 ≤ clampDuration d.toNat ∧ clampDuration d.toNat ≤ 10000)
  ∧ (∀ act : Action, actionCode act = (fieldOfAction act).zeroExtend 4 + 1#4)
  ∧ actionCode .shock = 0b0001#4 ∧ actionCode .vibrate = 0b0010#4 ∧ actionCode .beep = 0b0011#4
  ∧ actionCode .light = 0b0100#4

/-- The producer's duty (R240): for a value that does not fit its field it presents the field's maximum, and a value that
fits as it is; then the clamps are those of the unbounded value. -/
def Obligations.SaturationKeepsTheClamps : Prop :=
  (∀ width v : Nat,
    (2 ^ width ≤ v → (saturateField width v).toNat = 2 ^ width - 1)
    ∧ (v < 2 ^ width → (saturateField width v).toNat = v))
  ∧ ∀ v : Nat,
    (clampChannel (saturateField 8 v)).val = min v 2
    ∧ (clampIntensity (saturateField 8 v)).toNat = min v 99
    ∧ clampDuration (saturateField 16 v).toNat = max 300 (min v 10000)

/-! ### The timing table -/

/-- The timing table (R130, R131, R132): UsToTicks is the greatest number of whole ticks in the interval, and the
identity at 1 MHz; each entry RESET builds is the converted constant of its protocol and kind. -/
def Obligations.TimingTableHoldsTheConvertedConstants : Prop :=
  (∀ clkHz us : Nat, usToTicks clkHz us * 1000000 ≤ us * clkHz ∧ us * clkHz < (usToTicks clkHz us + 1) * 1000000)
  ∧ (∀ us : Nat, usToTicks 1000000 us = us)
  ∧ usToTicks 32768 380 = 12 ∧ usToTicks 32768 2280 = 74
  ∧ ∀ (clkHz : Nat) (p : Protocol) (k : PulseKind),
    ((buildTable clkHz).pair p k).high =
        usToTicks clkHz (match p, k with
          | .socket, .sync => 380 | .socket, .zero => 380 | .socket, .one => 1140
          | .collar, .sync => 1400 | .collar, .zero => 300 | .collar, .one => 800)
    ∧ ((buildTable clkHz).pair p k).low =
        usToTicks clkHz (match p, k with
          | .socket, .sync => 2280 | .socket, .zero => 1140 | .socket, .one => 380
          | .collar, .sync => 800 | .collar, .zero => 800 | .collar, .one => 300)

/-- Configuration validity (R133): all twelve entries in range, the short form of it, and that a run starts exactly
from a valid configuration. -/
def Obligations.ConfigurationValidity : Prop :=
  ∀ p : Params,
    (validParams p = true ↔ ∀ (q : Protocol) (k : PulseKind),
      (1 ≤ usToTicks p.clkHz (usConstants q k).high ∧ usToTicks p.clkHz (usConstants q k).high ≤ 2 ^ p.tickW - 1)
      ∧ (1 ≤ usToTicks p.clkHz (usConstants q k).low ∧ usToTicks p.clkHz (usConstants q k).low ≤ 2 ^ p.tickW - 1))
    ∧ (validParams p = true ↔ 3334 ≤ p.clkHz ∧ 2280 * p.clkHz / 1000000 ≤ 2 ^ p.tickW - 1)
    ∧ (∀ steps, (∃ t, boot p steps = .next t) ↔ validParams p = true)
    ∧ (∀ steps, boot p steps = .refused .configInvalid ↔ ¬ validParams p = true)

/-- Timing tolerance (R140): from 33334 Hz on, every entry is within 10% of its constant. -/
def Obligations.TimingWithinTenPercent : Prop :=
  ∀ (clkHz : Nat) (p : Protocol) (k : PulseKind), 33334 ≤ clkHz →
    9 * ((usConstants p k).high * clkHz) ≤ 10 * (((buildTable clkHz).pair p k).high * 1000000)
    ∧ ((buildTable clkHz).pair p k).high * 1000000 ≤ (usConstants p k).high * clkHz
    ∧ 9 * ((usConstants p k).low * clkHz) ≤ 10 * (((buildTable clkHz).pair p k).low * 1000000)
    ∧ ((buildTable clkHz).pair p k).low * 1000000 ≤ (usConstants p k).low * clkHz

/-! ### The waveforms -/

/-- Waveforms (R51, R135, R136, R137): 25 and 44 pairs; after the sync pair the data pairs carry the packet's bits, the
most significant first; the last three pairs of a Collar waveform are its guard, ZERO pairs. -/
def Obligations.DataPairsCarryThePacketBitsInOrder : Prop :=
  (∀ p tt id on, (socketWave p tt id on).pairs.length = 25
    ∧ (socketWave p tt id on).pairs[0]? = some (tt.pair .socket .sync)
    ∧ ∀ k, k < 24 → (socketWave p tt id on).pairs[k + 1]? =
        some (if (packSocket p id on).getLsbD (23 - k) then tt.pair .socket .one else tt.pair .socket .zero))
  ∧ (∀ tt id ch act intensity, (collarWave tt id ch act intensity).pairs.length = 44
    ∧ (collarWave tt id ch act intensity).pairs[0]? = some (tt.pair .collar .sync)
    ∧ (∀ k, k < 40 → (collarWave tt id ch act intensity).pairs[k + 1]? =
        some (if (packCollar id ch act intensity).getLsbD (39 - k) then tt.pair .collar .one
              else tt.pair .collar .zero))
    ∧ ∀ k, 40 ≤ k → k < 43 → (collarWave tt id ch act intensity).pairs[k + 1]? = some (tt.pair .collar .zero))

/-- Closed pulse alphabet (R138), in a valid configuration: the three pairs of a protocol differ; every pair of a
waveform is one of them, the first is SYNC and no later one is. -/
def Obligations.ClosedPulseAlphabet : Prop :=
  ∀ (c : Config) (p : Protocol),
    let tt := buildTable c.params.clkHz
    (∀ k k' : PulseKind, tt.pair p k = tt.pair p k' ↔ k = k')
    ∧ ∀ bs : BitSequence, (pulseEncode tt p bs).first = tt.pair p .sync
      ∧ ∀ q ∈ (pulseEncode tt p bs).rest, (q = tt.pair p .zero ∨ q = tt.pair p .one) ∧ q ≠ tt.pair p .sync

/-- Waveform airtime (R141): the ZERO and the ONE pair of a protocol take equally long, so it does not depend on the
data. -/
def Obligations.AirtimeIndependentOfTheData : Prop :=
  (∀ (clkHz : Nat) (p : Protocol),
    ((buildTable clkHz).pair p .zero).high + ((buildTable clkHz).pair p .zero).low =
      ((buildTable clkHz).pair p .one).high + ((buildTable clkHz).pair p .one).low)
  ∧ (∀ (clkHz : Nat) (p : Params) (id : BitVec 8) (on : Bool),
    (socketWave p (buildTable clkHz) id on).airtime =
      (usToTicks clkHz 380 + usToTicks clkHz 2280) + 24 * (usToTicks clkHz 380 + usToTicks clkHz 1140))
  ∧ (∀ (clkHz : Nat) (id : BitVec 16) (ch : BitVec 8) (act : Action) (intensity : BitVec 8),
    (collarWave (buildTable clkHz) id ch act intensity).airtime =
      (usToTicks clkHz 1400 + usToTicks clkHz 800) + 43 * (usToTicks clkHz 300 + usToTicks clkHz 800))
  ∧ (∀ p id on, (socketWave p (buildTable 1000000) id on).airtime = 39140)
  ∧ (∀ id ch act intensity, (collarWave (buildTable 1000000) id ch act intensity).airtime = 49500)
  ∧ (∀ id ch act intensity, (collarWave (buildTable 32768) id ch act intensity).airtime = 1576)

/-- What a waveform drives (R134, R211): pair k is the high level for its high ticks, then the low level for its low
ticks; the ticks add up to the airtime. -/
def Obligations.WaveformDrivesHighThenLow : Prop :=
  ∀ (w : Waveform) (k : Nat),
    w.levels[2 * k]? = w.pairs[k]?.map (fun p => (true, p.high))
    ∧ w.levels[2 * k + 1]? = w.pairs[k]?.map (fun p => (false, p.low))
    ∧ (w.levels.map fun l => l.2).sum = w.airtime

/-- In a valid configuration a Collar waveform tells its receiver the id, the action and the clamped channel and
intensity, and nothing else (R110, R112, R135, R138). -/
def Obligations.CollarWaveformDeterminesTheClampedCommand : Prop :=
  ∀ (c : Config) (id id' : BitVec 16) (ch ch' : BitVec 8) (act act' : Action) (i i' : BitVec 8),
    collarWave (buildTable c.params.clkHz) id ch act i = collarWave (buildTable c.params.clkHz) id' ch' act' i' ↔
      id = id' ∧ min ch.toNat 2 = min ch'.toNat 2 ∧ act = act' ∧ min i.toNat 99 = min i'.toNat 99

/-- In a valid configuration a Socket waveform tells its receiver the action code and the low nibble of the id, and
nothing else, and it is no Collar waveform (R106, R107, R108, R135, R138). -/
def Obligations.SocketWaveformDeterminesCodeAndNibble : Prop :=
  ∀ (c : Config) (id id' : BitVec 8) (on on' : Bool),
    (socketWave c.params (buildTable c.params.clkHz) id on = socketWave c.params (buildTable c.params.clkHz) id' on' ↔
      socketCode c.params on = socketCode c.params on' ∧ id.toNat % 16 = id'.toNat % 16)
    ∧ ∀ cid ch act i, socketWave c.params (buildTable c.params.clkHz) id on ≠
        collarWave (buildTable c.params.clkHz) cid ch act i

/-! ### The CMD step -/

/-- RepeatCount (R153, R154): 6 to 200 copies; the clamped duration over 50 with halves up; 6 for Beep and Light. -/
def Obligations.RepeatCountRoundsHalfUp : Prop :=
  (∀ act dur, 6 ≤ repeatCount act dur ∧ repeatCount act dur ≤ 200)
  ∧ (∀ act dur, act = .shock ∨ act = .vibrate →
      50 * repeatCount act dur ≤ max 300 (min dur.toNat 10000) + 25
      ∧ max 300 (min dur.toNat 10000) + 25 < 50 * (repeatCount act dur + 1))
  ∧ (∀ act dur, act = .beep ∨ act = .light → repeatCount act dur = 6)
  ∧ repeatCount .shock 500#16 = 10 ∧ repeatCount .shock 40#16 = 6 ∧ repeatCount .vibrate 325#16 = 7
  ∧ repeatCount .shock 324#16 = 6 ∧ repeatCount .shock 9974#16 = 199 ∧ repeatCount .shock 9975#16 = 200

/-- SOCKET (R151, R158): in every state it completes; its 10 copies go to the tail and it answers OK, or, where they
exceed a finite QUEUE_DEPTH, it answers FULL, sets the sticky OVERFLOW and enqueues none. Nothing else changes. The answer
stands in the port record, the model's own (assumption 5). -/
def Obligations.SocketEnqueuesTenCopies : Prop :=
  ∀ (id : BitVec 8) (on : Bool) (s : State),
    (s.cfg.params.queueDepth = .unbounded → exec (.socket id on) s =
      .next { s with
        fifo := s.fifo ++ List.replicate 10 (socketWave s.cfg.params s.tt id on)
        portlog := s.portlog ++ [.ack (some (.socket id on)) .ok] })
    ∧ ∀ d, s.cfg.params.queueDepth = .finite d →
      (s.fifo.length + 10 ≤ d → exec (.socket id on) s =
        .next { s with
          fifo := s.fifo ++ List.replicate 10 (socketWave s.cfg.params s.tt id on)
          portlog := s.portlog ++ [.ack (some (.socket id on)) .ok] })
      ∧ (d < s.fifo.length + 10 → exec (.socket id on) s =
        .next { s with
          faultOverflow := true
          portlog := s.portlog ++ [.ack (some (.socket id on)) .full] })

/-- COLLAR (R152): as SOCKET, with the repeat count of R153. The answer stands in the port record, the model's own
(assumption 5). -/
def Obligations.CollarEnqueuesItsRepeatCount : Prop :=
  ∀ (id : BitVec 16) (ch : BitVec 8) (act : Action) (i : BitVec 8) (dur : BitVec 16) (s : State),
    (s.cfg.params.queueDepth = .unbounded → exec (.collar id ch act i dur) s =
      .next { s with
        fifo := s.fifo ++ List.replicate (repeatCount act dur) (collarWave s.tt id ch act i)
        portlog := s.portlog ++ [.ack (some (.collar id ch act i dur)) .ok] })
    ∧ ∀ d, s.cfg.params.queueDepth = .finite d →
      (s.fifo.length + repeatCount act dur ≤ d → exec (.collar id ch act i dur) s =
        .next { s with
          fifo := s.fifo ++ List.replicate (repeatCount act dur) (collarWave s.tt id ch act i)
          portlog := s.portlog ++ [.ack (some (.collar id ch act i dur)) .ok] })
      ∧ (d < s.fifo.length + repeatCount act dur → exec (.collar id ch act i dur) s =
        .next { s with
          faultOverflow := true
          portlog := s.portlog ++ [.ack (some (.collar id ch act i dur)) .full] })

/-- Any 64-bit word presented in any state completes and is answered exactly once; FULL never with an unbounded queue
(R81, R156, R207), and a CMD step leaves the transmit side alone. The answer stands in the port record, the model's own
(assumption 5). -/
def Obligations.EveryCommandWordIsAnsweredOnce : Prop :=
  ∀ (p : CmdWord) (s : State), ∃ (t : State) (c : Option Command) (a : Ack),
    runWord ⟨0b000#3, p⟩ s = .next t
    ∧ t.portlog = s.portlog ++ [.ack c a]
    ∧ (a = .malformed ↔ c = none)
    ∧ (s.cfg.params.queueDepth = .unbounded → a ≠ .full)
    ∧ (a = .ok ∨ t.fifo = s.fifo)
    ∧ (a = .full ∨ t.faultOverflow = s.faultOverflow)
    ∧ (a = .malformed ∨ t.malformedSeen = s.malformedSeen)
    ∧ t.busy = s.busy ∧ t.startPending = s.startPending ∧ t.inflight = s.inflight ∧ t.donePending = s.donePending
    ∧ t.faultTxStart = s.faultTxStart ∧ t.txlog = s.txlog ∧ t.popped = s.popped ∧ t.tt = s.tt ∧ t.cfg = s.cfg

/-! ### The Dispatcher, the transmitter and the synchronizer -/

/-- TICK, label 001 (R173, R174): Idle with work it starts exactly the head; otherwise it changes nothing. It completes
in every state. The first clause, that the label decodes alike under all payload lines p, is assumption 4 (DEDUCED). -/
def Obligations.TickStartsTheHeadWhenIdle : Prop :=
  (∀ p : CmdWord, decode ⟨0b001#3, p⟩ = .instr .tick)
  ∧ ∀ s : State,
    (∀ w rest, s.busy = false → s.fifo = w :: rest → exec .tick s =
      .next { s with busy := true, fifo := rest, startPending := some w, popped := s.popped ++ [w] })
    ∧ (s.busy = true → exec .tick s = .next s)
    ∧ (s.fifo = [] → exec .tick s = .next s)

/-- TX_ACCEPT, label 010 (R175): with an offer it completes, and busy, which is 1, stays 1; without one it has no
move. The first clause, that the label decodes alike under all payload lines p, is assumption 4 (DEDUCED). -/
def Obligations.TxAcceptLatchesTheOffer : Prop :=
  (∀ p : CmdWord, decode ⟨0b010#3, p⟩ = .instr .txAccept)
  ∧ ∀ s : State,
    (∀ w, s.startPending = some w → exec .txAccept s =
      .next { s with startPending := none, inflight := some w, txlog := s.txlog ++ [w] }
      ∧ (HandshakeInv s → s.busy = true))
    ∧ (s.startPending = none → exec .txAccept s = .refused .noOfferPending)

/-- TX_REJECT, label 011 (R176): with an offer it completes: the offer is discarded, the sticky TX_START is set and busy,
which is 1, stays 1; without one it has no move. After it, whatever is presented but RESET, busy stays 1, nothing is popped,
every TICK does nothing and every command word is still taken. The first clause, that the label decodes alike under all
payload lines p, is assumption 4 (DEDUCED). -/
def Obligations.TxRejectDiscardsTheOffer : Prop :=
  (∀ p : CmdWord, decode ⟨0b011#3, p⟩ = .instr .txReject)
  ∧ ∀ s : State,
    (∀ w, s.startPending = some w → exec .txReject s =
      .next { s with startPending := none, faultTxStart := true }
      ∧ (HandshakeInv s → s.busy = true
        ∧ ∀ (ws : List StepWord) (u : State), (∀ v ∈ ws, decode v ≠ .instr .reset) →
          runWords ws { s with startPending := none, faultTxStart := true } = .next u →
          u.busy = true ∧ u.popped = s.popped ∧ exec .tick u = .next u
          ∧ ∀ p, ∃ v, runWord ⟨0b000#3, p⟩ u = .next v))
    ∧ (s.startPending = none → exec .txReject s = .refused .noOfferPending)

/-- TX_DONE, label 100 (R177): with a waveform in flight it completes: the completion enters the synchronizer and busy,
which is 1, stays 1; without one it has no move. The first clause, that the label decodes alike under all payload lines p,
is assumption 4 (DEDUCED). -/
def Obligations.TxDoneEntersTheSynchronizer : Prop :=
  (∀ p : CmdWord, decode ⟨0b100#3, p⟩ = .instr .txDone)
  ∧ ∀ s : State,
    (∀ w, s.inflight = some w → exec .txDone s = .next { s with inflight := none, donePending := true }
      ∧ (HandshakeInv s → s.busy = true))
    ∧ (s.inflight = none → exec .txDone s = .refused .nothingInFlight)

/-- SYNC, label 101 (R178): with a completion pending it completes and clears busy; without one it has no move. While a
waveform is offered, in flight or finished and not yet synchronized, a TICK does nothing, so none starts a waveform before
the SYNC of the previous one. The first clause, that the label decodes alike under all payload lines p, is assumption 4
(DEDUCED). -/
def Obligations.SyncClearsBusy : Prop :=
  (∀ p : CmdWord, decode ⟨0b101#3, p⟩ = .instr .sync)
  ∧ ∀ s : State,
    (s.donePending = true → exec .sync s = .next { s with donePending := false, busy := false })
    ∧ (s.donePending = false → exec .sync s = .refused .noCompletionPending)
    ∧ (HandshakeInv s → s.startPending.isSome = true ∨ s.inflight.isSome = true ∨ s.donePending = true →
        exec .tick s = .next s)

/-- STATUS_RD (R32, R179): it completes in every state, changes no state of the block and returns each field in its
bits; PENDING saturates. The word stands in the port record, the model's own (assumption 5). -/
def Obligations.StatusReadReturnsEveryField : Prop :=
  ∀ s : State, ∃ word : StatusWord,
    exec .statusRd s = .next { s with portlog := s.portlog ++ [.status word] }
    ∧ word.getLsbD 0 = s.busy
    ∧ word.getLsbD 1 = decide (s.fifo.length = 0)
    ∧ word.getLsbD 2 = s.malformedSeen
    ∧ word.getLsbD 3 = s.faultTxStart
    ∧ word.getLsbD 4 = s.faultOverflow
    ∧ word.extractLsb' 5 27 = 0#27
    ∧ (word.extractLsb' 32 32).toNat = min s.fifo.length (2 ^ 32 - 1)

/-- RESET (R230, R232): every field of the record takes its reset value; the configuration stays (R231). The last two
clauses are the model's own fields (assumptions 3 and 5). -/
def Obligations.ResetWritesEveryField : Prop :=
  ∀ s : State, ∃ t, exec .reset s = .next t
    ∧ (∀ p k, t.tt.pair p k =
        ⟨usToTicks s.cfg.params.clkHz (usConstants p k).high, usToTicks s.cfg.params.clkHz (usConstants p k).low⟩)
    ∧ t.fifo = [] ∧ t.busy = false ∧ t.startPending = none ∧ t.inflight = none ∧ t.donePending = false
    ∧ t.faultTxStart = false ∧ t.faultOverflow = false ∧ t.malformedSeen = false ∧ t.txlog = []
    ∧ t.popped = [] ∧ t.cfg = s.cfg
    ∧ t.portlog = [] ∧ t.schedule = s.schedule

/-- An instruction has a move exactly when its rule's 'Enabled when' holds, and otherwise it is refused, never
faulted (R150, R173 to R179, R230). -/
def Obligations.StepHasAMoveExactlyWhenEnabled : Prop :=
  ∀ (i : Instr) (s : State),
    ((∃ t, exec i s = .next t) ↔ enabled i s = true) ∧ ∀ r, exec i s ≠ .fault r

/-! ### The step -/

/-- A step runs the decoded instruction, with that step taken off the schedule (R58, R86), the model's own input
(assumption 3); the step that `withFetchWord` places (assumption 14) is the very next one run. -/
def Obligations.StepRunsTheDecodedInstruction : Prop :=
  (∀ (s : State) (w : StepWord) (rest : List StepWord) (i : Instr),
    s.schedule = w :: rest → decode w = .instr i → step s = exec i { s with schedule := rest })
  ∧ ∀ (s : State) (nbits w : Nat) (i : Instr), decodeTableWord nbits w = some i →
    step (s.withFetchWord nbits w) = exec i s

/-- A malformed command word (R155): its step completes in every state, answers MALFORMED, sets `malformed_seen` and
changes nothing else, but that the step is taken off the schedule. A step stops with a fault exactly on an empty
schedule. The schedule and the port record are the model's own (assumptions 3 and 5). -/
def Obligations.MalformedWordIsReportedAndHarmless : Prop :=
  (∀ (s : State) (w : StepWord) (rest : List StepWord) (why : Malformed),
    s.schedule = w :: rest → decode w = .malformed why →
      step s = .next { s with
        schedule := rest, malformedSeen := true, portlog := s.portlog ++ [.ack none .malformed] })
  ∧ ∀ (s : State) (r : Fault), step s = .fault r ↔ s.schedule = []

/-! ### Invariants and whole-machine rules -/

/-- The state after RESET, under any valid configuration, meets every invariant of the block (R235).
Two of them read the port record, the model's own, which RESET empties (assumption 5, DESIGN CHOICE). -/
def Obligations.ResetStateMeetsTheInvariants : Prop :=
  BlockInv State.reset ∧ ∀ c : Config, BlockInv (State.afterReset c)

/-- Every step keeps the handshake invariant (R35). -/
def Obligations.HandshakeInvariantKept : Prop :=
  ∀ s t : State, HandshakeInv s → step s = .next t → HandshakeInv t

/-- Every step keeps FIFO integrity (R185 item 1): what was popped, then what is pending, is exactly the copies of
the commands answered OK, in order. Which commands were answered OK stands in the port record, the model's own
(assumption 5). -/
def Obligations.FifoIntegrityKept : Prop :=
  ∀ s t : State, FifoConserved s → step s = .next t → FifoConserved t

/-- Every step keeps the transmission record (R185 item 2), of which it follows that `txlog` begins `popped`, which is
at most one waveform longer. -/
def Obligations.TransmissionRecordKept : Prop :=
  (∀ s t : State, HandshakeInv s → TxlogInv s → step s = .next t → TxlogInv t)
  ∧ ∀ s : State, TxlogInv s → s.txlog <+: s.popped ∧ s.popped.length ≤ s.txlog.length + 1

/-- The table is written at RESET only (R23, R61), and each of its twelve durations is 1 to 2^TICK_W - 1 (R133). -/
def Obligations.TimingTableKept : Prop :=
  (∀ s t : State, TableInv s → step s = .next t → TableInv t ∧ t.tt = s.tt)
  ∧ ∀ s : State, TableInv s → ∀ d ∈ s.tt.durations, 1 ≤ d ∧ d ≤ 2 ^ s.cfg.params.tickW - 1

/-- Every step keeps the capacity and the report invariants: the FIFO never exceeds a finite QUEUE_DEPTH and OVERFLOW
is never set when it is UNBOUNDED (R24, R30); `malformed_seen` and `fault_overflow` are set exactly when a CMD step
since RESET answered MALFORMED or FULL (R30, R31, R81), as the port record, the model's own, says (assumption 5). -/
def Obligations.CapacityAndReportsKept : Prop :=
  ∀ s t : State, step s = .next t → (DepthInv s → DepthInv t) ∧ (ReportInv s → ReportInv t)

/-- Sticky bits (R202): only RESET clears one; a CMD step alone sets `malformed_seen` or `fault_overflow`, and
TX_REJECT alone sets `fault_tx_start` (R33). -/
def Obligations.StickyBitsClearedByResetOnly : Prop :=
  ∀ (w : StepWord) (s t : State), runWord w s = .next t →
    (w.label ≠ 0b111#3 →
      (s.malformedSeen = true → t.malformedSeen = true) ∧ (s.faultOverflow = true → t.faultOverflow = true)
      ∧ (s.faultTxStart = true → t.faultTxStart = true))
    ∧ (s.malformedSeen = false → t.malformedSeen = true → w.label = 0b000#3)
    ∧ (s.faultOverflow = false → t.faultOverflow = true → w.label = 0b000#3)
    ∧ (s.faultTxStart = false → t.faultTxStart = true → w.label = 0b011#3)

/-- Writers of busy (R180). -/
def Obligations.BusyIsWrittenByTickSyncAndResetOnly : Prop :=
  ∀ (w : StepWord) (s t : State), runWord w s = .next t →
    (s.busy = false → t.busy = true → decode w = .instr .tick)
    ∧ (s.busy = true → t.busy = false → decode w = .instr .sync ∨ decode w = .instr .reset)

/-- Only its agents write each piece of shared state (R212, R25 to R31); the reset source writes all of it. -/
def Obligations.EachFieldIsWrittenByItsAgentsOnly : Prop :=
  ∀ (w : StepWord) (s t : State), runWord w s = .next t → agentOfLabel w.label ≠ .resetSource →
    (t.fifo ≠ s.fifo → agentOfLabel w.label = .producer ∨ agentOfLabel w.label = .dispatcher)
    ∧ (t.busy ≠ s.busy → agentOfLabel w.label = .dispatcher ∨ agentOfLabel w.label = .synchronizer)
    ∧ (t.startPending ≠ s.startPending →
        agentOfLabel w.label = .dispatcher ∨ agentOfLabel w.label = .transmitter)
    ∧ (t.inflight ≠ s.inflight → agentOfLabel w.label = .transmitter)
    ∧ (t.donePending ≠ s.donePending →
        agentOfLabel w.label = .transmitter ∨ agentOfLabel w.label = .synchronizer)
    ∧ (t.faultTxStart ≠ s.faultTxStart → agentOfLabel w.label = .transmitter)
    ∧ (t.faultOverflow ≠ s.faultOverflow ∨ t.malformedSeen ≠ s.malformedSeen →
        agentOfLabel w.label = .producer)
    ∧ (t.txlog ≠ s.txlog → agentOfLabel w.label = .transmitter)
    ∧ (t.popped ≠ s.popped → agentOfLabel w.label = .dispatcher)
    ∧ t.tt = s.tt ∧ t.cfg = s.cfg

/-- No step's behaviour depends on the three sticky bits, which STATUS_RD alone reads (R33): with other values in them
every other instruction does the same to the rest of the state, sets the same of them, and stops in the same cases; RESET,
which clears them, leaves the very same state. -/
def Obligations.NoStepDependsOnTheStickyBits : Prop :=
  ∀ (i : Instr) (s : State) (m o x : Bool), i ≠ .statusRd →
    (∀ t, exec i s = .next t → i ≠ .reset → ∃ setM setO setX : Bool,
      t.malformedSeen = (s.malformedSeen || setM) ∧ t.faultOverflow = (s.faultOverflow || setO)
      ∧ t.faultTxStart = (s.faultTxStart || setX)
      ∧ exec i { s with malformedSeen := m, faultOverflow := o, faultTxStart := x } =
        .next { t with malformedSeen := m || setM, faultOverflow := o || setO, faultTxStart := x || setX })
    ∧ (i = .reset → exec i { s with malformedSeen := m, faultOverflow := o, faultTxStart := x } = exec i s)
    ∧ ∀ r, exec i s = .refused r →
        exec i { s with malformedSeen := m, faultOverflow := o, faultTxStart := x } = .refused r

/-- The records are observations (R34, R185): no step, malformed words included, reads `txlog`, `popped` or the port
record, the model's own (assumption 5, DESIGN CHOICE). With other values in them every step does the same to the rest of the
state, appends the same waveforms and the same answers, and stops in the same cases; RESET, which empties them, leaves the
very same state. -/
def Obligations.NoStepReadsTheRecords : Prop :=
  ∀ (w : StepWord) (s : State) (l p : List Waveform) (a : List PortAnswer),
    (∀ t, runWord w s = .next t → decode w ≠ .instr .reset → ∃ (sent taken : List Waveform) (said : List PortAnswer),
      t.txlog = s.txlog ++ sent ∧ t.popped = s.popped ++ taken ∧ t.portlog = s.portlog ++ said
      ∧ runWord w { s with txlog := l, popped := p, portlog := a } =
        .next { t with txlog := l ++ sent, popped := p ++ taken, portlog := a ++ said })
    ∧ (decode w = .instr .reset → runWord w { s with txlog := l, popped := p, portlog := a } = runWord w s)
    ∧ ∀ r, runWord w s = .refused r → runWord w { s with txlog := l, popped := p, portlog := a } = .refused r

/-- No cancellation (R181): of all steps, malformed words included, only TICK removes a waveform from the FIFO, and then
its head; only TX_DONE ends the one in flight; RESET is the exception. -/
def Obligations.NoCancellation : Prop :=
  ∀ (w : StepWord) (s t : State), runWord w s = .next t → decode w ≠ .instr .reset →
    (decode w ≠ .instr .tick → s.fifo <+: t.fifo)
    ∧ (decode w = .instr .tick → s.fifo = t.fifo ∨ ∃ v, s.fifo = v :: t.fifo ∧ t.startPending = some v)
    ∧ (∀ v, s.inflight = some v → decode w ≠ .instr .txDone → decode w ≠ .instr .txAccept → t.inflight = some v)
    ∧ (∀ v, HandshakeInv s → s.inflight = some v → decode w ≠ .instr .txDone → t.inflight = some v)

/-- No step changes the configuration (R231), and so, under the table's invariant, no step makes equal commands give
different waveforms (R139). -/
def Obligations.ConfigurationAndWaveformsFixed : Prop :=
  ∀ (ws : List StepWord) (s t : State), runWords ws s = .next t →
    t.cfg = s.cfg
    ∧ (TableInv s → ∀ c : Command, Command.waveform t.cfg.params t.tt c = Command.waveform s.cfg.params s.tt c)

/-- Mutual exclusion (R184): from a start, no schedule without RESET takes a second waveform from the FIFO unless a
TX_DONE and, after it, a SYNC have happened. -/
def Obligations.NoSecondStartBeforeDoneAndSync : Prop :=
  ∀ (ws : List StepWord) (s t : State), HandshakeInv s → s.startPending.isSome = true →
    (∀ w ∈ ws, decode w ≠ .instr .reset) → runWords ws s = .next t → t.popped ≠ s.popped →
    ∃ (before between after : List StepWord) (done sync : StepWord),
      ws = before ++ done :: between ++ sync :: after
      ∧ decode done = .instr .txDone ∧ decode sync = .instr .sync

/-- While busy, no schedule without SYNC and RESET starts anything (R170, R184): busy stays 1 and nothing is popped. -/
def Obligations.NothingStartsWhileTransmitting : Prop :=
  ∀ (ws : List StepWord) (s t : State), s.busy = true →
    (∀ w ∈ ws, decode w ≠ .instr .sync ∧ decode w ≠ .instr .reset) → runWords ws s = .next t →
    t.busy = true ∧ t.popped = s.popped ∧ s.fifo <+: t.fifo

/-- No timeout (R182): busy with no completion delivered, no schedule without TX_DONE and RESET clears busy or starts a
waveform. -/
def Obligations.BusyForeverWithoutCompletion : Prop :=
  ∀ (ws : List StepWord) (s t : State), s.busy = true → s.donePending = false →
    (∀ w ∈ ws, decode w ≠ .instr .txDone ∧ decode w ≠ .instr .reset) → runWords ws s = .next t →
    t.busy = true ∧ t.popped = s.popped

/-- A failed start stops dispatch until RESET (R203): nothing more is started or transmitted, while every command word
is still taken. -/
def Obligations.FailedStartStopsDispatchUntilReset : Prop :=
  ∀ (ws : List StepWord) (s t : State), HandshakeInv s → s.faultTxStart = true →
    (∀ w ∈ ws, decode w ≠ .instr .reset) → runWords ws s = .next t →
    t.busy = true ∧ t.faultTxStart = true ∧ t.popped = s.popped ∧ t.txlog = s.txlog ∧ s.fifo <+: t.fifo
    ∧ ∀ p, ∃ u, runWord ⟨0b000#3, p⟩ t = .next u

/-- BUSY = 0 and EMPTY = 1 in a STATUS word mean that every waveform enqueued since RESET has been accepted by the
transmitter and has finished (R236). What was enqueued is read from the port record, the model's own (assumption 5). -/
def Obligations.IdleAndEmptyMeansEverythingWasSent : Prop :=
  ∀ s : State, BlockInv s → (statusWord s).getLsbD 0 = false → (statusWord s).getLsbD 1 = true →
    s.txlog = enqueuedSinceReset s ∧ s.startPending = none ∧ s.inflight = none ∧ s.donePending = false

/-- XMIT (R57, R85): from Idle with work it transmits exactly the head of the FIFO; as many XMITs as the FIFO holds
empty it and transmit all of it, in order. What it does with an offer already pending is assumption 19. -/
def Obligations.XmitsDrainTheQueueInOrder : Prop :=
  (∀ (s : State) (w : Waveform) (rest : List Waveform), s.busy = false → s.fifo = w :: rest →
    runWords (expandLine .xmit) s =
      .next { s with
        fifo := rest, txlog := s.txlog ++ [w], popped := s.popped ++ [w], startPending := none, inflight := none,
        donePending := false })
  ∧ ∀ s : State, s.busy = false → s.startPending = none → s.inflight = none → s.donePending = false →
    runWords (List.replicate s.fifo.length (expandLine .xmit)).flatten s =
      .next { s with fifo := [], txlog := s.txlog ++ s.fifo, popped := s.popped ++ s.fifo }

/-- A command commutes with every step of the transmitter and the synchronizer (R206): either order of two enabled
steps gives the same state. -/
def Obligations.CommandsCommuteWithTheTransmitter : Prop :=
  ∀ (c : Command) (i : Instr) (s : State),
    i = .txAccept ∨ i = .txReject ∨ i = .txDone ∨ i = .sync → enabled i s = true →
    ∃ t u v, exec c.instr s = .next t ∧ exec i t = .next v ∧ exec i s = .next u ∧ exec c.instr u = .next v

/-- Simultaneous events (R206). A TICK and a SYNC: TICK first sees busy and does nothing, and the next TICK starts the
waveform; SYNC first, and that TICK starts it. A CMD and a TICK, Idle with an empty FIFO: the TICK starts the command's
first copy only if the command came first. -/
def Obligations.CoincidingStepsMayTakeEitherOrder : Prop :=
  (∀ (s : State) (w : Waveform) (rest : List Waveform),
    s.busy = true → s.donePending = true → s.fifo = w :: rest →
    runWords [encode .tick, encode .sync, encode .tick] s = runWords [encode .sync, encode .tick] s
    ∧ runWords [encode .sync, encode .tick] s =
        .next { s with
          donePending := false, busy := true, fifo := rest, startPending := some w, popped := s.popped ++ [w] })
  ∧ ∀ (c : Command) (s : State), s.busy = false → s.fifo = [] → s.cfg.params.queueDepth = .unbounded →
    (∃ t, runWords [encode c.instr, encode .tick] s = .next t
      ∧ t.startPending = some (Command.waveform s.cfg.params s.tt c) ∧ t.busy = true
      ∧ t.fifo.length + 1 = Command.copies c)
    ∧ ∃ t, runWords [encode .tick, encode c.instr] s = .next t
      ∧ t.startPending = s.startPending ∧ t.busy = false ∧ t.fifo.length = Command.copies c

/-- The assembler (R84, R85): an in-range SOCKET, COLLAR or `.cmd` line assembles to one CMD step that carries exactly its
operands or its word, and an operand out of range is refused, never truncated; a line without operands assembles to its step;
a pseudo-instruction assembles as the line it expands to, XMIT to its four steps. -/
def Obligations.AssemblerKeepsOperandsOrRefuses : Prop :=
  (∀ (id : Nat) (on : Bool),
    (id ≤ 255 → ∃ (w : StepWord) (b : BitVec 8), assemble (.socket id on) = .steps [w]
      ∧ decode w = .instr (.socket b on) ∧ b.toNat = id)
    ∧ (255 < id → assemble (.socket id on) = .error .operandOutOfRange))
  ∧ (∀ (id ch : Nat) (act : Action) (i dur : Nat),
    (id ≤ 65535 ∧ ch ≤ 255 ∧ i ≤ 255 ∧ dur ≤ 65535 → ∃ (w : StepWord) (b : BitVec 16) (c k : BitVec 8) (d : BitVec 16),
      assemble (.collar id ch act i dur) = .steps [w] ∧ decode w = .instr (.collar b c act k d)
      ∧ b.toNat = id ∧ c.toNat = ch ∧ k.toNat = i ∧ d.toNat = dur)
    ∧ (65535 < id ∨ 255 < ch ∨ 255 < i ∨ 65535 < dur →
      assemble (.collar id ch act i dur) = .error .operandOutOfRange))
  ∧ (∀ word : Nat,
    (word < 2 ^ 64 → ∃ w : StepWord, assemble (.cmd word) = .steps [w] ∧ w.label = 0b000#3 ∧ w.payload.toNat = word)
    ∧ (2 ^ 64 ≤ word → assemble (.cmd word) = .error .operandOutOfRange))
  ∧ (assemble .tick = .steps [⟨0b001#3, 0#64⟩] ∧ assemble .txacc = .steps [⟨0b010#3, 0#64⟩]
    ∧ assemble .txrej = .steps [⟨0b011#3, 0#64⟩] ∧ assemble .txdone = .steps [⟨0b100#3, 0#64⟩]
    ∧ assemble .sync = .steps [⟨0b101#3, 0#64⟩] ∧ assemble .status = .steps [⟨0b110#3, 0#64⟩]
    ∧ assemble .reset = .steps [⟨0b111#3, 0#64⟩])
  ∧ (∀ id : Nat, assemble (.socketOn id) = assemble (.socket id true)
    ∧ assemble (.socketOff id) = assemble (.socket id false))
  ∧ (∀ id ch i dur : Nat, assemble (.shock id ch i dur) = assemble (.collar id ch .shock i dur)
    ∧ assemble (.vibrate id ch i dur) = assemble (.collar id ch .vibrate i dur)
    ∧ assemble (.beep id ch i) = assemble (.collar id ch .beep i 0)
    ∧ assemble (.light id ch i) = assemble (.collar id ch .light i 0))
  ∧ assemble .xmit = .steps [⟨0b001#3, 0#64⟩, ⟨0b010#3, 0#64⟩, ⟨0b100#3, 0#64⟩, ⟨0b101#3, 0#64⟩]

/-- Every enqueued waveform is transmitted (R215, R216): in an infinite run without RESET that starts in a state of
the invariants, with TICK and SYNC weakly fair, TX_FAIR, and no failed start, whatever was enqueued at some point is
in `txlog`, in order, at some later point. What was enqueued is read from the port record, the model's own
(assumption 5). -/
def Obligations.EveryEnqueuedWaveformIsTransmitted : Prop :=
  ∀ (σ : Nat → State) (e : Nat → StepWord), IsRun σ e → BlockInv (σ 0) →
    (∀ n, decode (e n) ≠ .instr .reset) → (∀ n, (σ n).faultTxStart = false) →
    TickFair e → SyncFair σ e → TxFair σ e →
    ∀ n, ∃ m, n ≤ m ∧ enqueuedSinceReset (σ n) <+: (σ m).txlog

/-- TX_FAIR (R215) loses no waveform that is offered or in flight: in a run that meets it no offer is rejected, and a RESET
comes only while nothing is offered or in flight. The waveforms still in the FIFO are excepted: a RESET discards them
(R230, R233, ResetWritesEveryField). That TX_FAIR speaks of each offer's own answer is the reading of assumption 20 (DEDUCED). -/
def Obligations.TxFairRunsLoseNoOfferedOrInFlightWaveform : Prop :=
  ∀ (σ : Nat → State) (e : Nat → StepWord), IsRun σ e → TxFair σ e →
    ∀ n, decode (e n) ≠ .instr .txReject
      ∧ (decode (e n) = .instr .reset → (σ n).startPending = none ∧ (σ n).inflight = none)
end

