-- ==== Sys2Proof/Laws/Bits.lean ====
section
/-! SUPPORT. Bit sequences, waveforms and the fields of the encoded words. -/

namespace Sys2Proof.Machine

open Sys2Proof

/-- `bits_N` has N bits (R10). -/
@[simp] theorem bitsOf_length {n : Nat} (v : BitVec n) : (bitsOf v).length = n := by
  simp [bitsOf]

/-- Bit k of `bits_N(v)` is bit N-1-k of v (R8, R51). -/
theorem bitsOf_getElem? {n : Nat} (v : BitVec n) (k : Nat) (h : k < n) :
    (bitsOf v)[k]? = some (v.getLsbD (n - 1 - k)) := by
  simp [bitsOf, BitVec.getMsbD, h]

/-- The bits of a packet determine it. -/
theorem bitsOf_injective {n : Nat} {v u : BitVec n} (h : bitsOf v = bitsOf u) : v = u := by
  apply BitVec.eq_of_getLsbD_eq
  intro i hi
  have hk := congrArg (fun l => l[n - 1 - i]?) h
  simp only [bitsOf_getElem? _ _ (show n - 1 - i < n by omega)] at hk
  simpa [show n - 1 - (n - 1 - i) = i by omega] using hk

/-- A waveform's pairs are its sync pair and one pair a bit (R135). -/
theorem pulseEncode_pairs (tt : TimingTable) (p : Protocol) (bs : BitSequence) :
    (pulseEncode tt p bs).pairs = tt.pair p .sync :: bs.map fun b => tt.pair p (kindOfBit b) := rfl

/-- `1 + n` pairs (R135). -/
theorem pulseEncode_length (tt : TimingTable) (p : Protocol) (bs : BitSequence) :
    (pulseEncode tt p bs).pairs.length = 1 + bs.length := by
  simp [pulseEncode_pairs, Nat.add_comm]

/-- The ACT field round trip (R74). -/
theorem actionOfField_fieldOfAction (a : Action) : actionOfField (fieldOfAction a) = a := by
  cases a <;> rfl

/-- The ACT field round trip, the other way (R74). -/
theorem fieldOfAction_actionOfField (b : BitVec 2) : fieldOfAction (actionOfField b) = b := by
  revert b; decide

/-- A finite schedule in two parts. -/
theorem runWords_append (ws us : List StepWord) (s : State) :
    runWords (ws ++ us) s = match runWords ws s with
      | .next t => runWords us t
      | .fault r => .fault r
      | .refused r => .refused r := by
  induction ws generalizing s with
  | nil => rfl
  | cons w ws ih =>
    simp only [List.cons_append, runWords]
    cases runWord w s with
    | next t => exact ih t
    | fault r => rfl
    | refused r => rfl

/-- A fact that every step of a schedule keeps holds at its end: the induction over schedules, once. -/
theorem runWords_keeps {P : State → Prop} {Q : StepWord → Prop}
    (hstep : ∀ w s t, Q w → P s → runWord w s = .next t → P t) :
    ∀ (ws : List StepWord) (s t : State), (∀ w ∈ ws, Q w) → P s → runWords ws s = .next t → P t
  | [], s, t, _, hp, h => by cases h; exact hp
  | w :: ws, s, t, hq, hp, h => by
    simp only [runWords] at h
    cases hr : runWord w s with
    | next u =>
      rw [hr] at h
      exact runWords_keeps hstep ws u t (fun x hx => hq x (List.mem_cons_of_mem _ hx))
        (hstep w s u (hq w List.mem_cons_self) hp hr) h
    | fault r => simp [hr] at h
    | refused r => simp [hr] at h

end Sys2Proof.Machine
end

