-- ==== Sys2Proof/Laws/State.lean ====
section
/-! SUPPORT. One lemma for each field of each named update of the state, so that no proof unfolds an update. -/

namespace Sys2Proof.Machine

open Sys2Proof

@[simp] theorem presentNext_cfg (w : StepWord) (s : State) : (presentNext w s).cfg = s.cfg := rfl
@[simp] theorem presentNext_tt (w : StepWord) (s : State) : (presentNext w s).tt = s.tt := rfl
@[simp] theorem presentNext_fifo (w : StepWord) (s : State) : (presentNext w s).fifo = s.fifo := rfl
@[simp] theorem presentNext_busy (w : StepWord) (s : State) : (presentNext w s).busy = s.busy := rfl
@[simp] theorem presentNext_startPending (w : StepWord) (s : State) : (presentNext w s).startPending = s.startPending := rfl
@[simp] theorem presentNext_inflight (w : StepWord) (s : State) : (presentNext w s).inflight = s.inflight := rfl
@[simp] theorem presentNext_donePending (w : StepWord) (s : State) : (presentNext w s).donePending = s.donePending := rfl
@[simp] theorem presentNext_faultTxStart (w : StepWord) (s : State) : (presentNext w s).faultTxStart = s.faultTxStart := rfl
@[simp] theorem presentNext_faultOverflow (w : StepWord) (s : State) : (presentNext w s).faultOverflow = s.faultOverflow := rfl
@[simp] theorem presentNext_malformedSeen (w : StepWord) (s : State) : (presentNext w s).malformedSeen = s.malformedSeen := rfl
@[simp] theorem presentNext_txlog (w : StepWord) (s : State) : (presentNext w s).txlog = s.txlog := rfl
@[simp] theorem presentNext_popped (w : StepWord) (s : State) : (presentNext w s).popped = s.popped := rfl
@[simp] theorem presentNext_portlog (w : StepWord) (s : State) : (presentNext w s).portlog = s.portlog := rfl
@[simp] theorem presentNext_schedule (w : StepWord) (s : State) : (presentNext w s).schedule = w :: s.schedule := rfl

@[simp] theorem answer_cfg (a : PortAnswer) (s : State) : (answer a s).cfg = s.cfg := rfl
@[simp] theorem answer_tt (a : PortAnswer) (s : State) : (answer a s).tt = s.tt := rfl
@[simp] theorem answer_fifo (a : PortAnswer) (s : State) : (answer a s).fifo = s.fifo := rfl
@[simp] theorem answer_busy (a : PortAnswer) (s : State) : (answer a s).busy = s.busy := rfl
@[simp] theorem answer_startPending (a : PortAnswer) (s : State) : (answer a s).startPending = s.startPending := rfl
@[simp] theorem answer_inflight (a : PortAnswer) (s : State) : (answer a s).inflight = s.inflight := rfl
@[simp] theorem answer_donePending (a : PortAnswer) (s : State) : (answer a s).donePending = s.donePending := rfl
@[simp] theorem answer_faultTxStart (a : PortAnswer) (s : State) : (answer a s).faultTxStart = s.faultTxStart := rfl
@[simp] theorem answer_faultOverflow (a : PortAnswer) (s : State) : (answer a s).faultOverflow = s.faultOverflow := rfl
@[simp] theorem answer_malformedSeen (a : PortAnswer) (s : State) : (answer a s).malformedSeen = s.malformedSeen := rfl
@[simp] theorem answer_txlog (a : PortAnswer) (s : State) : (answer a s).txlog = s.txlog := rfl
@[simp] theorem answer_popped (a : PortAnswer) (s : State) : (answer a s).popped = s.popped := rfl
@[simp] theorem answer_portlog (a : PortAnswer) (s : State) : (answer a s).portlog = s.portlog ++ [a] := rfl
@[simp] theorem answer_schedule (a : PortAnswer) (s : State) : (answer a s).schedule = s.schedule := rfl

@[simp] theorem markMalformed_cfg (s : State) : (markMalformed s).cfg = s.cfg := rfl
@[simp] theorem markMalformed_tt (s : State) : (markMalformed s).tt = s.tt := rfl
@[simp] theorem markMalformed_fifo (s : State) : (markMalformed s).fifo = s.fifo := rfl
@[simp] theorem markMalformed_busy (s : State) : (markMalformed s).busy = s.busy := rfl
@[simp] theorem markMalformed_startPending (s : State) : (markMalformed s).startPending = s.startPending := rfl
@[simp] theorem markMalformed_inflight (s : State) : (markMalformed s).inflight = s.inflight := rfl
@[simp] theorem markMalformed_donePending (s : State) : (markMalformed s).donePending = s.donePending := rfl
@[simp] theorem markMalformed_faultTxStart (s : State) : (markMalformed s).faultTxStart = s.faultTxStart := rfl
@[simp] theorem markMalformed_faultOverflow (s : State) : (markMalformed s).faultOverflow = s.faultOverflow := rfl
@[simp] theorem markMalformed_malformedSeen (s : State) : (markMalformed s).malformedSeen = true := rfl
@[simp] theorem markMalformed_txlog (s : State) : (markMalformed s).txlog = s.txlog := rfl
@[simp] theorem markMalformed_popped (s : State) : (markMalformed s).popped = s.popped := rfl
@[simp] theorem markMalformed_portlog (s : State) : (markMalformed s).portlog = s.portlog := rfl
@[simp] theorem markMalformed_schedule (s : State) : (markMalformed s).schedule = s.schedule := rfl

@[simp] theorem raiseOverflow_cfg (s : State) : (raiseFault .overflow s).cfg = s.cfg := rfl
@[simp] theorem raiseOverflow_tt (s : State) : (raiseFault .overflow s).tt = s.tt := rfl
@[simp] theorem raiseOverflow_fifo (s : State) : (raiseFault .overflow s).fifo = s.fifo := rfl
@[simp] theorem raiseOverflow_busy (s : State) : (raiseFault .overflow s).busy = s.busy := rfl
@[simp] theorem raiseOverflow_startPending (s : State) : (raiseFault .overflow s).startPending = s.startPending := rfl
@[simp] theorem raiseOverflow_inflight (s : State) : (raiseFault .overflow s).inflight = s.inflight := rfl
@[simp] theorem raiseOverflow_donePending (s : State) : (raiseFault .overflow s).donePending = s.donePending := rfl
@[simp] theorem raiseOverflow_faultTxStart (s : State) : (raiseFault .overflow s).faultTxStart = s.faultTxStart := rfl
@[simp] theorem raiseOverflow_faultOverflow (s : State) : (raiseFault .overflow s).faultOverflow = true := rfl
@[simp] theorem raiseOverflow_malformedSeen (s : State) : (raiseFault .overflow s).malformedSeen = s.malformedSeen := rfl
@[simp] theorem raiseOverflow_txlog (s : State) : (raiseFault .overflow s).txlog = s.txlog := rfl
@[simp] theorem raiseOverflow_popped (s : State) : (raiseFault .overflow s).popped = s.popped := rfl
@[simp] theorem raiseOverflow_portlog (s : State) : (raiseFault .overflow s).portlog = s.portlog := rfl
@[simp] theorem raiseOverflow_schedule (s : State) : (raiseFault .overflow s).schedule = s.schedule := rfl

@[simp] theorem raiseTxStart_cfg (s : State) : (raiseFault .txStart s).cfg = s.cfg := rfl
@[simp] theorem raiseTxStart_tt (s : State) : (raiseFault .txStart s).tt = s.tt := rfl
@[simp] theorem raiseTxStart_fifo (s : State) : (raiseFault .txStart s).fifo = s.fifo := rfl
@[simp] theorem raiseTxStart_busy (s : State) : (raiseFault .txStart s).busy = s.busy := rfl
@[simp] theorem raiseTxStart_startPending (s : State) : (raiseFault .txStart s).startPending = s.startPending := rfl
@[simp] theorem raiseTxStart_inflight (s : State) : (raiseFault .txStart s).inflight = s.inflight := rfl
@[simp] theorem raiseTxStart_donePending (s : State) : (raiseFault .txStart s).donePending = s.donePending := rfl
@[simp] theorem raiseTxStart_faultTxStart (s : State) : (raiseFault .txStart s).faultTxStart = true := rfl
@[simp] theorem raiseTxStart_faultOverflow (s : State) : (raiseFault .txStart s).faultOverflow = s.faultOverflow := rfl
@[simp] theorem raiseTxStart_malformedSeen (s : State) : (raiseFault .txStart s).malformedSeen = s.malformedSeen := rfl
@[simp] theorem raiseTxStart_txlog (s : State) : (raiseFault .txStart s).txlog = s.txlog := rfl
@[simp] theorem raiseTxStart_popped (s : State) : (raiseFault .txStart s).popped = s.popped := rfl
@[simp] theorem raiseTxStart_portlog (s : State) : (raiseFault .txStart s).portlog = s.portlog := rfl
@[simp] theorem raiseTxStart_schedule (s : State) : (raiseFault .txStart s).schedule = s.schedule := rfl

@[simp] theorem clearBusy_cfg (s : State) : (clearBusy s).cfg = s.cfg := rfl
@[simp] theorem clearBusy_tt (s : State) : (clearBusy s).tt = s.tt := rfl
@[simp] theorem clearBusy_fifo (s : State) : (clearBusy s).fifo = s.fifo := rfl
@[simp] theorem clearBusy_busy (s : State) : (clearBusy s).busy = false := rfl
@[simp] theorem clearBusy_startPending (s : State) : (clearBusy s).startPending = s.startPending := rfl
@[simp] theorem clearBusy_inflight (s : State) : (clearBusy s).inflight = s.inflight := rfl
@[simp] theorem clearBusy_donePending (s : State) : (clearBusy s).donePending = s.donePending := rfl
@[simp] theorem clearBusy_faultTxStart (s : State) : (clearBusy s).faultTxStart = s.faultTxStart := rfl
@[simp] theorem clearBusy_faultOverflow (s : State) : (clearBusy s).faultOverflow = s.faultOverflow := rfl
@[simp] theorem clearBusy_malformedSeen (s : State) : (clearBusy s).malformedSeen = s.malformedSeen := rfl
@[simp] theorem clearBusy_txlog (s : State) : (clearBusy s).txlog = s.txlog := rfl
@[simp] theorem clearBusy_popped (s : State) : (clearBusy s).popped = s.popped := rfl
@[simp] theorem clearBusy_portlog (s : State) : (clearBusy s).portlog = s.portlog := rfl
@[simp] theorem clearBusy_schedule (s : State) : (clearBusy s).schedule = s.schedule := rfl

@[simp] theorem resetRecord_cfg (s : State) : (resetRecord s).cfg = s.cfg := rfl
@[simp] theorem resetRecord_tt (s : State) : (resetRecord s).tt = buildTable s.cfg.params.clkHz := rfl
@[simp] theorem resetRecord_fifo (s : State) : (resetRecord s).fifo = [] := rfl
@[simp] theorem resetRecord_busy (s : State) : (resetRecord s).busy = false := rfl
@[simp] theorem resetRecord_startPending (s : State) : (resetRecord s).startPending = none := rfl
@[simp] theorem resetRecord_inflight (s : State) : (resetRecord s).inflight = none := rfl
@[simp] theorem resetRecord_donePending (s : State) : (resetRecord s).donePending = false := rfl
@[simp] theorem resetRecord_faultTxStart (s : State) : (resetRecord s).faultTxStart = false := rfl
@[simp] theorem resetRecord_faultOverflow (s : State) : (resetRecord s).faultOverflow = false := rfl
@[simp] theorem resetRecord_malformedSeen (s : State) : (resetRecord s).malformedSeen = false := rfl
@[simp] theorem resetRecord_txlog (s : State) : (resetRecord s).txlog = [] := rfl
@[simp] theorem resetRecord_popped (s : State) : (resetRecord s).popped = [] := rfl
@[simp] theorem resetRecord_portlog (s : State) : (resetRecord s).portlog = [] := rfl
@[simp] theorem resetRecord_schedule (s : State) : (resetRecord s).schedule = s.schedule := rfl

@[simp] theorem afterReset_cfg (c : Config) : (State.afterReset c).cfg = c := rfl
@[simp] theorem afterReset_tt (c : Config) : (State.afterReset c).tt = buildTable c.params.clkHz := rfl
@[simp] theorem afterReset_fifo (c : Config) : (State.afterReset c).fifo = [] := rfl
@[simp] theorem afterReset_busy (c : Config) : (State.afterReset c).busy = false := rfl
@[simp] theorem afterReset_startPending (c : Config) : (State.afterReset c).startPending = none := rfl
@[simp] theorem afterReset_inflight (c : Config) : (State.afterReset c).inflight = none := rfl
@[simp] theorem afterReset_donePending (c : Config) : (State.afterReset c).donePending = false := rfl
@[simp] theorem afterReset_faultTxStart (c : Config) : (State.afterReset c).faultTxStart = false := rfl
@[simp] theorem afterReset_faultOverflow (c : Config) : (State.afterReset c).faultOverflow = false := rfl
@[simp] theorem afterReset_malformedSeen (c : Config) : (State.afterReset c).malformedSeen = false := rfl
@[simp] theorem afterReset_txlog (c : Config) : (State.afterReset c).txlog = [] := rfl
@[simp] theorem afterReset_popped (c : Config) : (State.afterReset c).popped = [] := rfl
@[simp] theorem afterReset_portlog (c : Config) : (State.afterReset c).portlog = [] := rfl
@[simp] theorem afterReset_schedule (c : Config) : (State.afterReset c).schedule = [] := rfl

end Sys2Proof.Machine
end

