-- ==== Sys2Proof/Laws/Ops.lean ====
section
/-! SUPPORT. One lemma for each shared operation that says all it can do, and what each instruction does when it
answers a next state; later proofs cite these and unfold no meaning. -/

namespace Sys2Proof.Machine

open Sys2Proof

/-- FifoPushN within the capacity (R171). -/
theorem fifoPushN_of_within {n : Nat} {w : Waveform} {s : State}
    (h : withinDepth s.cfg.params.queueDepth (s.fifo.length + n) = true) :
    fifoPushN n w s = (.ok, { s with fifo := s.fifo ++ List.replicate n w }) := by
  simp [fifoPushN, h]

/-- FifoPushN beyond the capacity (R171): all or nothing. -/
theorem fifoPushN_of_beyond {n : Nat} {w : Waveform} {s : State}
    (h : withinDepth s.cfg.params.queueDepth (s.fifo.length + n) = false) :
    fifoPushN n w s = (.full, { s with faultOverflow := true }) := by
  simp [fifoPushN, h, raiseFault]

/-- An unbounded FIFO takes everything (R81, R171). -/
theorem withinDepth_unbounded (n : Nat) : withinDepth .unbounded n = true := rfl

/-- A finite FIFO takes up to its depth (R171). -/
theorem withinDepth_finite (d n : Nat) : withinDepth (.finite d) n = decide (n ≤ d) := rfl

/-- All a well-formed command can do (R150, R171): its copies and OK, or OVERFLOW and FULL. -/
theorem enqueueCommand_cases (c : Command) (s : State) :
    (withinDepth s.cfg.params.queueDepth (s.fifo.length + Command.copies c) = true ∧
      enqueueCommand c s = { s with
        fifo := s.fifo ++ List.replicate (Command.copies c) (Command.waveform s.cfg.params s.tt c)
        portlog := s.portlog ++ [.ack (some c) .ok] }) ∨
    (withinDepth s.cfg.params.queueDepth (s.fifo.length + Command.copies c) = false ∧
      enqueueCommand c s = { s with
        faultOverflow := true
        portlog := s.portlog ++ [.ack (some c) .full] }) := by
  cases h : withinDepth s.cfg.params.queueDepth (s.fifo.length + Command.copies c) with
  | true => exact .inl ⟨rfl, by simp [enqueueCommand, fifoPushN_of_within h, answer]⟩
  | false => exact .inr ⟨rfl, by simp [enqueueCommand, fifoPushN_of_beyond h, answer]⟩

/-- The instruction of a command enqueues it (R151, R152). -/
theorem exec_command (c : Command) (s : State) : exec c.instr s = .next (enqueueCommand c s) := by
  cases c <;> rfl

/-- TICK when Idle with work (R173). -/
theorem execTick_start {s : State} {w : Waveform} {rest : List Waveform} (hb : s.busy = false)
    (hf : s.fifo = w :: rest) :
    execTick s = .next { s with
      busy := true, fifo := rest, startPending := some w, popped := s.popped ++ [w] } := by
  simp [execTick, casBusy, fifoPop, hb, hf]

/-- TICK when Transmitting, or with nothing pending (R173). -/
theorem execTick_idle {s : State} (h : s.busy = true ∨ s.fifo = []) : execTick s = .next s := by
  rcases h with h | h <;> simp [execTick, h]

/-- All TICK can do. -/
theorem execTick_cases (s : State) :
    (∃ w rest, s.busy = false ∧ s.fifo = w :: rest ∧ execTick s = .next { s with
      busy := true, fifo := rest, startPending := some w, popped := s.popped ++ [w] }) ∨
    ((s.busy = true ∨ s.fifo = []) ∧ execTick s = .next s) := by
  cases hb : s.busy with
  | true => exact .inr ⟨.inl rfl, execTick_idle (.inl hb)⟩
  | false =>
    cases hf : s.fifo with
    | nil => exact .inr ⟨.inr rfl, execTick_idle (.inr hf)⟩
    | cons w rest => exact .inl ⟨w, rest, rfl, rfl, execTick_start hb hf⟩

/-- TX_ACCEPT (R175), inverted. -/
theorem execTxAccept_next {s t : State} (h : execTxAccept s = .next t) :
    ∃ w, s.startPending = some w ∧
      t = { s with startPending := none, inflight := some w, txlog := s.txlog ++ [w] } := by
  cases hp : s.startPending with
  | none => simp [execTxAccept, hp] at h
  | some w => exact ⟨w, rfl, by simpa [execTxAccept, hp] using h.symm⟩

/-- TX_REJECT (R176), inverted. -/
theorem execTxReject_next {s t : State} (h : execTxReject s = .next t) :
    ∃ w, s.startPending = some w ∧ t = { s with startPending := none, faultTxStart := true } := by
  cases hp : s.startPending with
  | none => simp [execTxReject, hp] at h
  | some w => exact ⟨w, rfl, by simpa [execTxReject, hp, raiseFault] using h.symm⟩

/-- TX_DONE (R177), inverted. -/
theorem execTxDone_next {s t : State} (h : execTxDone s = .next t) :
    ∃ w, s.inflight = some w ∧ t = { s with inflight := none, donePending := true } := by
  cases hp : s.inflight with
  | none => simp [execTxDone, hp] at h
  | some w => exact ⟨w, rfl, by simpa [execTxDone, hp] using h.symm⟩

/-- SYNC (R178), inverted. -/
theorem execSync_next {s t : State} (h : execSync s = .next t) :
    s.donePending = true ∧ t = { s with donePending := false, busy := false } := by
  cases hp : s.donePending with
  | false => simp [execSync, hp] at h
  | true => exact ⟨rfl, by simpa [execSync, hp, clearBusy] using h.symm⟩

/-- What a step of the machine can do to a state, guards included (R12, R79). -/
inductive Move : StepWord → State → State → Prop where
  | accepted {w s} (c : Command) (hd : decode w = .instr c.instr)
      (hq : withinDepth s.cfg.params.queueDepth (s.fifo.length + Command.copies c) = true) :
      Move w s { s with
        fifo := s.fifo ++ List.replicate (Command.copies c) (Command.waveform s.cfg.params s.tt c)
        portlog := s.portlog ++ [.ack (some c) .ok] }
  | full {w s} (c : Command) (hd : decode w = .instr c.instr)
      (hq : withinDepth s.cfg.params.queueDepth (s.fifo.length + Command.copies c) = false) :
      Move w s { s with faultOverflow := true, portlog := s.portlog ++ [.ack (some c) .full] }
  | malformed {w s} (why : Malformed) (hd : decode w = .malformed why) :
      Move w s { s with malformedSeen := true, portlog := s.portlog ++ [.ack none .malformed] }
  | start {w s} (v : Waveform) (rest : List Waveform) (hd : decode w = .instr .tick) (hb : s.busy = false)
      (hf : s.fifo = v :: rest) :
      Move w s { s with busy := true, fifo := rest, startPending := some v, popped := s.popped ++ [v] }
  | poll {w s} (hd : decode w = .instr .tick) (h : s.busy = true ∨ s.fifo = []) : Move w s s
  | accept {w s} (v : Waveform) (hd : decode w = .instr .txAccept) (hp : s.startPending = some v) :
      Move w s { s with startPending := none, inflight := some v, txlog := s.txlog ++ [v] }
  | reject {w s} (v : Waveform) (hd : decode w = .instr .txReject) (hp : s.startPending = some v) :
      Move w s { s with startPending := none, faultTxStart := true }
  | done {w s} (v : Waveform) (hd : decode w = .instr .txDone) (hp : s.inflight = some v) :
      Move w s { s with inflight := none, donePending := true }
  | sync {w s} (hd : decode w = .instr .sync) (hp : s.donePending = true) :
      Move w s { s with donePending := false, busy := false }
  | status {w s} (hd : decode w = .instr .statusRd) :
      Move w s { s with portlog := s.portlog ++ [.status (statusWord s)] }
  | reset {w s} (hd : decode w = .instr .reset) : Move w s (resetRecord s)

/-- Every next state of a step is one of the moves: the one inversion lemma of the machine. -/
theorem runWord_moves {w : StepWord} {s t : State} (h : runWord w s = .next t) : Move w s t := by
  have command : ∀ c : Command, decode w = .instr c.instr → Move w s (enqueueCommand c s) := by
    intro c hd
    obtain ⟨hq, he⟩ | ⟨hq, he⟩ := enqueueCommand_cases c s
    · rw [he]; exact .accepted c hd hq
    · rw [he]; exact .full c hd hq
  unfold runWord at h
  cases hd : decode w with
  | malformed why =>
    rw [hd] at h
    cases h
    exact .malformed why hd
  | instr i =>
    rw [hd] at h
    cases i with
    | socket id on => cases h; exact command (.socket id on) hd
    | collar id ch act x dur => cases h; exact command (.collar id ch act x dur) hd
    | tick =>
      obtain ⟨v, rest, hb, hf, he⟩ | ⟨hs, he⟩ := execTick_cases s
      · change execTick s = _ at h
        rw [he] at h
        cases h
        exact .start v rest hd hb hf
      · change execTick s = _ at h
        rw [he] at h
        cases h
        exact .poll hd hs
    | txAccept => obtain ⟨v, hp, rfl⟩ := execTxAccept_next h; exact .accept v hd hp
    | txReject => obtain ⟨v, hp, rfl⟩ := execTxReject_next h; exact .reject v hd hp
    | txDone => obtain ⟨v, hp, rfl⟩ := execTxDone_next h; exact .done v hd hp
    | sync => obtain ⟨hp, rfl⟩ := execSync_next h; exact .sync hd hp
    | statusRd => cases h; exact .status hd
    | reset => cases h; exact .reset hd

/-- A step of the machine is the next word of the schedule run on the rest of it. -/
theorem step_next {s t : State} (h : step s = .next t) :
    ∃ w rest, s.schedule = w :: rest ∧ runWord w { s with schedule := rest } = .next t := by
  unfold step fetch at h
  cases hs : s.schedule with
  | nil => simp [hs] at h
  | cons w rest => exact ⟨w, rest, rfl, by simpa [hs] using h⟩

end Sys2Proof.Machine
end

