-- ==== Sys2Proof/Laws/Words.lean ====
section
/-! SUPPORT. The encoded words and the packets as numbers, and each of their fields read back. -/

namespace Sys2Proof.Machine

open Sys2Proof

/-- Concatenation (R9) as a number. -/
theorem toNat_append_add {m n : Nat} (x : BitVec m) (y : BitVec n) :
    (x ++ y).toNat = x.toNat * 2 ^ n + y.toNat := by
  rw [BitVec.toNat_append, ← Nat.shiftLeft_add_eq_or_of_lt y.isLt, Nat.shiftLeft_eq]

/-- A slice (R8) as a number. -/
theorem toNat_slice {n : Nat} (x : BitVec n) (lo len : Nat) :
    (x.extractLsb' lo len).toNat = x.toNat / 2 ^ lo % 2 ^ len := by
  rw [BitVec.extractLsb'_toNat, Nat.shiftRight_eq_div_pow]

/-- The SOCKET word (R72) as a number. -/
theorem socketWord_toNat (id : BitVec 8) (on : Bool) :
    (socketWord id on).toNat = 2 ^ 60 + on.toNat * 2 ^ 8 + id.toNat := by
  simp only [socketWord, toNat_append_add, BitVec.toNat_ofBool, BitVec.toNat_ofNat]
  omega

/-- The COLLAR word (R73) as a number. -/
theorem collarWord_toNat (id : BitVec 16) (ch : BitVec 8) (act : Action) (x : BitVec 8) (dur : BitVec 16) :
    (collarWord id ch act x dur).toNat = 2 ^ 61 + dur.toNat * 2 ^ 34 + x.toNat * 2 ^ 26
      + (fieldOfAction act).toNat * 2 ^ 24 + ch.toNat * 2 ^ 16 + id.toNat := by
  simp only [collarWord, toNat_append_add, BitVec.toNat_ofNat]
  omega

/-- Every field of a SOCKET word (R72). -/
theorem socketWord_fields (id : BitVec 8) (on : Bool) :
    (socketWord id on).extractLsb' 60 4 = 0x1#4 ∧ (socketWord id on).extractLsb' 9 51 = 0#51
    ∧ (socketWord id on).getLsbD 8 = on ∧ (socketWord id on).extractLsb' 0 8 = id := by
  have hid := id.isLt
  have hon := on.toNat_lt
  refine ⟨?_, ?_, ?_, ?_⟩
  · apply BitVec.eq_of_toNat_eq
    rw [toNat_slice, socketWord_toNat, BitVec.toNat_ofNat]
    omega
  · apply BitVec.eq_of_toNat_eq
    rw [toNat_slice, socketWord_toNat, BitVec.toNat_ofNat]
    omega
  · rw [BitVec.getLsbD, socketWord_toNat, Nat.testBit_eq_decide_div_mod_eq]
    cases on <;> simp <;> omega
  · apply BitVec.eq_of_toNat_eq
    rw [toNat_slice, socketWord_toNat]
    omega

/-- Every field of a COLLAR word (R73). -/
theorem collarWord_fields (id : BitVec 16) (ch : BitVec 8) (act : Action) (x : BitVec 8) (dur : BitVec 16) :
    (collarWord id ch act x dur).extractLsb' 60 4 = 0x2#4 ∧ (collarWord id ch act x dur).extractLsb' 50 10 = 0#10
    ∧ (collarWord id ch act x dur).extractLsb' 34 16 = dur ∧ (collarWord id ch act x dur).extractLsb' 26 8 = x
    ∧ (collarWord id ch act x dur).extractLsb' 24 2 = fieldOfAction act
    ∧ (collarWord id ch act x dur).extractLsb' 16 8 = ch ∧ (collarWord id ch act x dur).extractLsb' 0 16 = id := by
  have hid := id.isLt
  have hdur := dur.isLt
  have hx := x.isLt
  have hch := ch.isLt
  have hact := (fieldOfAction act).isLt
  refine ⟨?_, ?_, ?_, ?_, ?_, ?_, ?_⟩ <;> apply BitVec.eq_of_toNat_eq <;>
    simp only [toNat_slice, collarWord_toNat, BitVec.toNat_ofNat] <;> omega

/-- The Collar packet (R110, R111) as a number, in its five fields. -/
theorem packCollar_toNat (id : BitVec 16) (ch : BitVec 8) (act : Action) (x : BitVec 8) :
    (packCollar id ch act x).toNat = id.toNat * 2 ^ 24 + (channelCode (clampChannel ch)).toNat * 2 ^ 20
      + (actionCode act).toNat * 2 ^ 16 + (clampIntensity x).toNat * 2 ^ 8
      + (checksum (id.extractLsb' 8 8) (id.extractLsb' 0 8)
          (channelCode (clampChannel ch) ++ actionCode act) (clampIntensity x)).toNat := by
  have hid := id.isLt
  simp only [packCollar, toNat_append_add, toNat_slice]
  omega

/-- The Socket packet (R107) as a number, in its two fields. -/
theorem packSocket_toNat (p : Params) (id : BitVec 8) (on : Bool) :
    (packSocket p id on).toNat = (socketCode p on).toNat * 2 ^ 4 + id.toNat % 16 := by
  simp only [packSocket, toNat_append_add, toNat_slice]
  omega

/-- The channel code (R102) as a number. -/
theorem channelCode_toNat (ch : BitVec 8) : (channelCode (clampChannel ch)).toNat = min ch.toNat 2 := by
  have key : ∀ c : Fin 3, (channelCode c).toNat = c.val := by decide
  exact key _

/-- The clamped intensity (R104) as a number. -/
theorem clampIntensity_toNat (x : BitVec 8) : (clampIntensity x).toNat = min x.toNat 99 := by
  rw [clampIntensity, BitVec.toNat_ofNat]
  omega

/-- The checksum (R109) as a number. -/
theorem checksum_toNat (b0 b1 b2 b3 : BitVec 8) :
    (checksum b0 b1 b2 b3).toNat = (b0.toNat + b1.toNat + b2.toNat + b3.toNat) % 256 := by
  rw [checksum, BitVec.toNat_ofNat]
  omega

end Sys2Proof.Machine
end

