-- ==== Sys2Proof/Laws/PerInstr.lean ====
section
/-! SUPPORT. The per-instruction family EncodesWellFormed: every instruction's encoding is a well-formed step
(R76, R77, R79), one lemma for each constructor. -/

namespace Sys2Proof.Laws.EncodesWellFormed

open Sys2Proof Sys2Proof.Machine

/-- The statement about one instruction as it is written. -/
def Statement (i : Instr) : Prop := (encode i).wellFormed = true

theorem socket (id : BitVec 8) (on : Bool) : Statement (.socket id on) := by
  obtain ⟨hop, hres, -, -⟩ := socketWord_fields id on
  simp [Statement, encode, StepWord.wellFormed, CmdWord.wellFormed, hop, hres]

theorem collar (id : BitVec 16) (ch : BitVec 8) (act : Action) (intensity : BitVec 8) (dur : BitVec 16) :
    Statement (.collar id ch act intensity dur) := by
  obtain ⟨hop, hres, -⟩ := collarWord_fields id ch act intensity dur
  simp [Statement, encode, StepWord.wellFormed, CmdWord.wellFormed, hop, hres]

theorem tick : Statement .tick := rfl

theorem txAccept : Statement .txAccept := rfl

theorem txReject : Statement .txReject := rfl

theorem txDone : Statement .txDone := rfl

theorem sync : Statement .sync := rfl

theorem statusRd : Statement .statusRd := rfl

theorem reset : Statement .reset := rfl

end Sys2Proof.Laws.EncodesWellFormed
end

