-- ==== Sys2Proof/Tests/Slice0.lean ====
section
/-! SUPPORT. The model's own tests, each on one step or one function, with the expected value from the spec's vectors
(95_test_vectors.md, named at each test); and, for every statement with hypotheses, a witness that meets them. -/

namespace Sys2Proof.Tests

open Sys2Proof Sys2Proof.Machine

/-! ### Helpers: the configuration of 95 Part 2 and 3, with its illustrative socket codes -/

/-- CLK_HZ = 1000000, TICK_W = 16, UNBOUNDED. -/
def cfg1 : Config := ⟨⟨1000000, 16, .unbounded, 0xABCDE#20, 0x12345#20⟩, by decide⟩

/-- The same with QUEUE_DEPTH = 16 (95 P5). -/
def cfg16 : Config := ⟨⟨1000000, 16, .finite 16, 0xABCDE#20, 0x12345#20⟩, by decide⟩

/-- The state right after RESET. -/
def s0 : State := State.afterReset cfg1

/-- SocketWave(3, true). -/
def w3 : Waveform := socketWave cfg1.params (buildTable 1000000) 3#8 true

/-- The waveform of the Beep command of 95 W1. -/
def wBeep : Waveform := collarWave (buildTable 1000000) 1234#16 1#8 .beep 50#8

/-- The port record of `SOCKET 3, ON` answered OK. -/
def ok3 : PortAnswer := .ack (some (.socket 3#8 true)) .ok

/-- After `SOCKET 3, ON`. -/
def sQueued : State := { s0 with fifo := List.replicate 10 w3, portlog := [ok3] }

/-- And a TICK: the first copy is offered. -/
def sOffered : State :=
  { sQueued with fifo := List.replicate 9 w3, busy := true, startPending := some w3, popped := [w3] }

/-- And a TX_ACCEPT: it is in flight. -/
def sFlying : State := { sOffered with startPending := none, inflight := some w3, txlog := [w3] }

/-- And a TX_DONE: the completion is in the synchronizer. -/
def sDone : State := { sFlying with inflight := none, donePending := true }

/-- Or a TX_REJECT of the offer. -/
def sFailed : State := { sOffered with startPending := none, faultTxStart := true }

/-! ### Well-formedness: one ill-formed term for each check -/

/-- OP reserved (95 V6). -/
theorem test_wf_reserved_op : CmdWord.wellFormed 0x3000000000000000#64 = false := by decide

/-- SOCKET reserved bit 9 (95 V6). -/
theorem test_wf_socket_reserved_bit : CmdWord.wellFormed 0x1000000000000303#64 = false := by decide

/-- COLLAR reserved bit 50 (95 V6). -/
theorem test_wf_collar_reserved_bit : CmdWord.wellFormed 0x2004000000000000#64 = false := by decide

/-- A malformed payload, and payload lines on a label without payload. -/
theorem test_wf_step_words :
    StepWord.wellFormed ⟨0#3, 0#64⟩ = false ∧ StepWord.wellFormed ⟨1#3, 1#64⟩ = false
    ∧ StepWord.wellFormed ⟨1#3, 0#64⟩ = true ∧ StepWord.wellFormed ⟨0#3, 0x1000000000000103#64⟩ = true := by
  decide

/-- Assembler operands out of range (R84). -/
theorem test_wf_asm_ranges :
    (AsmLine.socket 256 true).wellFormed = false ∧ (AsmLine.collar 65536 0 .beep 0 0).wellFormed = false
    ∧ (AsmLine.collar 0 256 .beep 0 0).wellFormed = false ∧ (AsmLine.collar 0 0 .beep 256 0).wellFormed = false
    ∧ (AsmLine.collar 0 0 .beep 0 65536).wellFormed = false ∧ (AsmLine.cmd (2 ^ 64)).wellFormed = false
    ∧ (AsmLine.socketOn 256).wellFormed = false ∧ (AsmLine.socketOff 256).wellFormed = false := by
  decide

/-- Pseudo-instruction operands out of range (R84, R85). -/
theorem test_wf_pseudo_ranges :
    (AsmLine.shock 65536 0 0 0).wellFormed = false ∧ (AsmLine.shock 0 256 0 0).wellFormed = false
    ∧ (AsmLine.shock 0 0 256 0).wellFormed = false ∧ (AsmLine.shock 0 0 0 65536).wellFormed = false
    ∧ (AsmLine.vibrate 65536 0 0 0).wellFormed = false ∧ (AsmLine.vibrate 0 256 0 0).wellFormed = false
    ∧ (AsmLine.vibrate 0 0 256 0).wellFormed = false ∧ (AsmLine.vibrate 0 0 0 65536).wellFormed = false
    ∧ (AsmLine.beep 65536 0 0).wellFormed = false ∧ (AsmLine.beep 0 256 0).wellFormed = false
    ∧ (AsmLine.beep 0 0 256).wellFormed = false ∧ (AsmLine.light 65536 0 0).wellFormed = false
    ∧ (AsmLine.light 0 256 0).wellFormed = false ∧ (AsmLine.light 0 0 256).wellFormed = false := by
  decide

/-! ### Decoding: words written out from the spec's formats -/

/-- SOCKET (R72, 95 V6), bit by bit: OP 0001, 51 zeros, ON, ID. -/
theorem test_decode_socket :
    decodeCommand (0b0001#4 ++ 0#51 ++ 0b1#1 ++ 0b00000011#8) = .instr (.socket 3#8 true)
    ∧ decodeCommand 0x100000000000001F#64 = .instr (.socket 0x1F#8 false) := by decide

/-- COLLAR (R73, 95 W1 and V6), bit by bit: OP 0010, 10 zeros, DUR, INT, ACT, CH, ID. -/
theorem test_decode_collar :
    decodeCommand (0b0010#4 ++ 0#10 ++ 0#16 ++ 0b00110010#8 ++ 0b10#2 ++ 0b00000001#8 ++ 0b0000010011010010#16)
      = .instr (.collar 1234#16 1#8 .beep 50#8 0#16)
    ∧ decodeCommand 0x20000FA12C01ABCD#64 = .instr (.collar 0xABCD#16 1#8 .shock 75#8 1000#16) := by decide

/-- The seven labels without payload (R79). -/
theorem test_decode_labels :
    decode ⟨0b001#3, 0#64⟩ = .instr .tick ∧ decode ⟨0b010#3, 0#64⟩ = .instr .txAccept
    ∧ decode ⟨0b011#3, 0#64⟩ = .instr .txReject ∧ decode ⟨0b100#3, 0#64⟩ = .instr .txDone
    ∧ decode ⟨0b101#3, 0#64⟩ = .instr .sync ∧ decode ⟨0b110#3, 0#64⟩ = .instr .statusRd
    ∧ decode ⟨0b111#3, 0#64⟩ = .instr .reset := by decide

/-- Malformed words (95 V6). -/
theorem test_decode_malformed :
    decodeCommand 0x1000000000000303#64 = .malformed .socketReservedBits
    ∧ decodeCommand 0x2004000000000000#64 = .malformed .collarReservedBits
    ∧ decodeCommand 0#64 = .malformed (.reservedOp 0#4)
    ∧ decodeCommand 0xF000000000000000#64 = .malformed (.reservedOp 0xF#4) := by decide

/-- The table's numbering: 64-bit rows are command words, shorter rows labels. -/
theorem test_decode_table_words :
    decodeTableWord 64 0x1000000000000103 = some (.socket 3#8 true) ∧ decodeTableWord 8 6 = some .statusRd
    ∧ decodeTableWord 64 0x3000000000000000 = none := by decide

/-- The encoder writes the spec's words (95 V6). -/
theorem test_encode_words :
    encode (.socket 0xFF#8 true) = ⟨0#3, 0x10000000000001FF#64⟩
    ∧ encode (.collar 1234#16 7#8 .shock 200#8 20000#16) = ⟨0#3, 0x20013883200704D2#64⟩ := by decide

/-! ### Packers, timing and waveforms -/

/-- PackCollar (95 V2): the source's example, a sum of exactly 256, and the largest sum. -/
theorem test_pack_collar :
    packCollar 1234#16 1#8 .beep 50#8 = 0x04D213321B#40 ∧ packCollar 0xFF00#16 0#8 .shock 0#8 = 0xFF00010000#40
    ∧ packCollar 0xFFFF#16 5#8 .light 200#8 = 0xFFFF246385#40
    ∧ packCollar 0x0102#16 2#8 .vibrate 99#8 = 0x0102226388#40 := by decide

/-- PackSocket (95 V3). -/
theorem test_pack_socket :
    packSocket cfg1.params 3#8 true = 0xABCDE3#24 ∧ packSocket cfg1.params 0xFF#8 true = 0xABCDEF#24
    ∧ packSocket cfg1.params 0x10#8 false = 0x123450#24 := by decide

/-- Repeat counts (95 V5). -/
theorem test_repeat_count :
    repeatCount .shock 324#16 = 6 ∧ repeatCount .vibrate 325#16 = 7 ∧ repeatCount .shock 375#16 = 8
    ∧ repeatCount .shock 65535#16 = 200 ∧ repeatCount .light 65535#16 = 6 := by decide

/-- Configuration validity (95 V4). -/
theorem test_valid_configurations :
    validParams ⟨1000000, 12, .unbounded, 0, 0⟩ = true ∧ validParams ⟨1000000, 11, .unbounded, 0, 0⟩ = false
    ∧ validParams ⟨3334, 3, .unbounded, 0, 0⟩ = true ∧ validParams ⟨3333, 16, .unbounded, 0, 0⟩ = false
    ∧ validParams ⟨80000000, 18, .unbounded, 0, 0⟩ = true := by decide

/-- The Collar waveform of 95 W1: S, then Z Z Z Z Z O Z Z, ..., and the guard. -/
theorem test_collar_waveform :
    wBeep.first = ⟨1400, 800⟩
    ∧ wBeep.rest.take 8 = [⟨300, 800⟩, ⟨300, 800⟩, ⟨300, 800⟩, ⟨300, 800⟩, ⟨300, 800⟩, ⟨800, 300⟩, ⟨300, 800⟩,
        ⟨300, 800⟩]
    ∧ wBeep.rest.drop 38 = [⟨800, 300⟩, ⟨800, 300⟩, ⟨300, 800⟩, ⟨300, 800⟩, ⟨300, 800⟩]
    ∧ wBeep.airtime = 49500 := by decide

/-- The last four pairs of SocketWave(3, true) (R136) and its airtime (R141). -/
theorem test_socket_waveform :
    w3.rest.drop 20 = [⟨380, 1140⟩, ⟨380, 1140⟩, ⟨1140, 380⟩, ⟨1140, 380⟩] ∧ w3.airtime = 39140 := by decide

/-! ### Steps -/

/-- The fields of a next state, for a small comparison. -/
def look {α : Type} (f : State → α) : Host.Outcome State Fault Refusal → Option α
  | .next s => some (f s)
  | .fault _ => none
  | .refused _ => none

/-- SOCKET from reset (R151). -/
theorem test_socket_enqueues_ten :
    look (fun t => (t.fifo.length, t.portlog)) (exec (.socket 3#8 true) s0) = some (10, [ok3]) := by decide

/-- SOCKET over a finite depth (95 P5, steps 2 and 3). -/
theorem test_socket_overflow :
    look (fun t => (t.fifo.length, t.faultOverflow)) (exec (.socket 2#8 false)
      { State.afterReset cfg16 with fifo := List.replicate 10 w3 }) = some (10, true) := by decide

/-- COLLAR that just fits (95 P5, step 6): 9 + 6 within 16. -/
theorem test_collar_fits :
    look (fun t => (t.fifo.length, t.faultOverflow)) (exec (.collar 0#16 0#8 .shock 0#8 0#16)
      { State.afterReset cfg16 with fifo := List.replicate 9 w3, faultOverflow := true }) = some (15, true) := by
  decide

/-- A malformed word (95 P3, step 2). -/
theorem test_malformed_word :
    look (fun t => (t.malformedSeen, t.fifo.length, t.portlog)) (runWord (cmdStep 0x3000000000000000#64) s0)
      = some (true, 0, [.ack none .malformed]) := by decide

/-- TICK (95 P1, step 4). -/
theorem test_tick_starts : exec .tick sQueued = .next sOffered := rfl

/-- TICK while busy (95 P1, step 6). -/
theorem test_tick_busy : exec .tick sOffered = .next sOffered := rfl

/-- TX_ACCEPT (95 P1, step 7), and not enabled without an offer (95 V7). -/
theorem test_tx_accept :
    exec .txAccept sOffered = .next sFlying ∧ exec .txAccept s0 = .refused .noOfferPending := ⟨rfl, rfl⟩

/-- TX_REJECT (95 P4, step 4), and not enabled without an offer (95 V7). -/
theorem test_tx_reject :
    exec .txReject sOffered = .next sFailed ∧ exec .txReject s0 = .refused .noOfferPending := ⟨rfl, rfl⟩

/-- TX_DONE (95 P1, step 9), and not enabled with nothing in flight (95 P6, step 7). -/
theorem test_tx_done :
    exec .txDone sFlying = .next sDone ∧ exec .txDone s0 = .refused .nothingInFlight := ⟨rfl, rfl⟩

/-- SYNC (95 P1, step 12), and not enabled without a completion (95 V7). -/
theorem test_sync :
    look (fun t => (t.busy, t.donePending)) (exec .sync sDone) = some (false, false)
    ∧ exec .sync s0 = .refused .noCompletionPending := ⟨rfl, rfl⟩

/-- STATUS words (95 V8). -/
theorem test_status_words :
    statusWord s0 = 0x0000000000000002#64 ∧ statusWord sQueued = 0x0000000A00000000#64
    ∧ statusWord sOffered = 0x0000000900000001#64
    ∧ statusWord { s0 with fifo := List.replicate 19 w3, busy := true, faultTxStart := true } = 0x0000001300000009#64
    ∧ statusWord { s0 with fifo := List.replicate 15 w3, busy := true, faultOverflow := true } = 0x0000000F00000011#64 := by decide

/-- The STATUS word of 95 P3, step 5: any FIFO of 200 waveforms. -/
theorem test_status_word_malformed (l : List Waveform) (hl : l.length = 200) :
    statusWord { s0 with fifo := l, malformedSeen := true } = 0x000000C800000004#64 := by
  have he : l.isEmpty = false := by cases l <;> simp_all
  simp only [statusWord, pendingField, statusBits, hl, he]
  decide

/-- STATUS_RD returns its word and changes nothing else (95 P1, step 10). -/
theorem test_status_rd :
    exec .statusRd sDone = .next { sDone with portlog := [ok3, .status 0x0000000900000001#64] } := by
  have h : statusWord sDone = 0x0000000900000001#64 := by decide
  simp only [exec, execStatusRd, h]
  rfl

/-- RESET during a transmission (95 P6, step 5). -/
theorem test_reset : exec .reset sFlying = .next s0 := rfl

/-- A refused configuration has no run (95 V4), a valid one starts from RESET. -/
theorem test_boot :
    boot ⟨3333, 16, .unbounded, 0, 0⟩ [] = .refused .configInvalid ∧ boot cfg1.params [] = .next s0 := ⟨rfl, rfl⟩

/-- A placed table word is the next step, from State.reset too. -/
theorem test_placed_word_runs :
    (look (fun t => t.fifo.length) (step (State.reset.withFetchWord 64 0x1000000000000103)) = some 10)
    ∧ (look (fun t => t.busy) (step (State.reset.withFetchWord 8 1)) = some false)
    ∧ (look (fun t => t.busy) (step State.reset) = none) := by decide

/-! ### The assembler -/

/-- `socket 0x1f, off ; comment`: case, hexadecimal and comment (R84). -/
theorem test_parse_socket :
    parseLine ['s', 'o', 'c', 'k', 'e', 't', ' ', '0', 'x', '1', 'f', ',', ' ', 'o', 'f', 'f', ' ', ';', 'x']
      = .line (.socket 0x1F false) := by decide

/-- `BEEP 1234, 1, 50` expands to the COLLAR word of 95 P2. -/
theorem test_assemble_beep :
    assembleProgram [['B', 'E', 'E', 'P', ' ', '1', '2', '3', '4', ',', ' ', '1', ',', ' ', '5', '0']]
      = .steps [⟨0#3, 0x20000000CA0104D2#64⟩] := by decide

/-- XMIT expands to four steps (R85); an operand out of range is refused (R84). -/
theorem test_assemble_xmit_and_range :
    assemble .xmit = .steps [⟨1#3, 0#64⟩, ⟨2#3, 0#64⟩, ⟨4#3, 0#64⟩, ⟨5#3, 0#64⟩]
    ∧ assemble (.socket 256 true) = .error .operandOutOfRange := by decide

/-- A listing line (R86). -/
theorem test_listing :
    listingLine (cmdStep 0x1000000000000103#64) =
      ['0', '0', '0', ' ', '1', '0', '0', '0', '0', '0', '0', '0', '0', '0', '0', '0', '0', '1', '0', '3'] := by decide

/-! ### Witnesses: states and operands that meet the hypotheses of each statement together -/

/-- The invariants hold in the middle of a transmission. -/
theorem witness_block_inv : BlockInv sOffered where
  handshake := ⟨by decide, by decide, by decide⟩
  conserved := rfl
  txlog := ⟨fun w h => (by cases h; rfl), fun h => (by cases h), fun h => (by cases h), fun w h => (by cases h),
    fun h => (by cases h)⟩
  table := rfl
  depth := ⟨fun d h => (by cases h), fun _ => rfl⟩
  report := ⟨rfl, rfl⟩

/-- The invariants hold with the last of six Beep copies left, the five others sent. -/
def sLast : State :=
  { s0 with
    fifo := [wBeep], txlog := List.replicate 5 wBeep, popped := List.replicate 5 wBeep,
    portlog := [.ack (some (.collar 1234#16 1#8 .beep 50#8 0#16)) .ok] }

theorem witness_block_inv_last : BlockInv sLast where
  handshake := ⟨by decide, by decide, by decide⟩
  conserved := rfl
  txlog := ⟨fun w h => (by cases h), fun h => (by cases h), fun _ _ => rfl, fun w h => (by cases h),
    fun h => (by cases h)⟩
  table := rfl
  depth := ⟨fun d h => (by cases h), fun _ => rfl⟩
  report := ⟨rfl, rfl⟩

/-- EncodeInvertsDecode: a step that decodes to an instruction, payload lines of a TICK set. -/
theorem witness_EncodeInvertsDecode :
    decode ⟨1#3, 5#64⟩ = .instr .tick ∧ decode ⟨0#3, 0x1000000000000103#64⟩ = .instr (.socket 3#8 true) := by decide

/-- TimingWithinTenPercent: the bound itself. -/
theorem witness_TimingWithinTenPercent : (33334 : Nat) ≤ 33334 := Nat.le_refl _

/-- DataPairsCarryThePacketBitsInOrder: the first and last data bit, the first and last guard bit. -/
theorem witness_DataPairs :
    (0 < 24 ∧ 23 < 24) ∧ (0 < 40 ∧ 39 < 40) ∧ (40 ≤ 40 ∧ 40 < 43) ∧ (40 ≤ 42 ∧ 42 < 43) := by decide

/-- ClosedPulseAlphabet: a data pair of a waveform. -/
theorem witness_ClosedPulseAlphabet :
    (⟨300, 800⟩ : PulsePair) ∈ (pulseEncode (buildTable cfg1.params.clkHz) .collar [true, false]).rest := by decide

/-- RepeatCountRoundsHalfUp: each clause's action. -/
theorem witness_RepeatCount :
    (Action.shock = .shock ∨ Action.shock = .vibrate) ∧ (Action.vibrate = .shock ∨ Action.vibrate = .vibrate)
    ∧ (Action.beep = .beep ∨ Action.beep = .light) ∧ (Action.light = .beep ∨ Action.light = .light) := by decide

/-- SocketEnqueuesTenCopies: unbounded; 6 + 10 just within 16; 7 + 10 just beyond. -/
theorem witness_SocketEnqueues :
    s0.cfg.params.queueDepth = .unbounded
    ∧ (State.afterReset cfg16).cfg.params.queueDepth = .finite 16
    ∧ { State.afterReset cfg16 with fifo := List.replicate 6 w3 }.fifo.length + 10 ≤ 16
    ∧ 16 < { State.afterReset cfg16 with fifo := List.replicate 7 w3 }.fifo.length + 10 := by decide

/-- CollarEnqueuesItsRepeatCount: 10 + 6 just within 16; 11 + 6 just beyond. -/
theorem witness_CollarEnqueues :
    { State.afterReset cfg16 with fifo := List.replicate 10 w3 }.fifo.length + repeatCount .beep 0#16 ≤ 16
    ∧ 16 < { State.afterReset cfg16 with fifo := List.replicate 11 w3 }.fifo.length + repeatCount .beep 0#16 := by
  decide

/-- TickStartsTheHeadWhenIdle: each clause. -/
theorem witness_Tick :
    (sQueued.busy = false ∧ sQueued.fifo = w3 :: List.replicate 9 w3) ∧ sOffered.busy = true ∧ s0.fifo = [] :=
  ⟨⟨rfl, rfl⟩, rfl, rfl⟩

/-- TxAcceptLatchesTheOffer and TxRejectDiscardsTheOffer: both clauses, the first under the invariant, with a schedule
after the rejected start. -/
theorem witness_TxAcceptReject :
    HandshakeInv sOffered ∧ sOffered.startPending = some w3 ∧ s0.startPending = none
    ∧ (∀ v ∈ [encode .tick], decode v ≠ .instr .reset) ∧ runWords [encode .tick] sFailed = .next sFailed :=
  ⟨⟨by decide, by decide, by decide⟩, rfl, rfl, by decide, rfl⟩

/-- SaturationKeepsTheClamps: both clauses at the boundary of an 8-bit field. -/
theorem witness_Saturation : (2 : Nat) ^ 8 ≤ 256 ∧ (255 : Nat) < 2 ^ 8 := by decide

/-- TxDoneEntersTheSynchronizer: both clauses, the first under the invariant. -/
theorem witness_TxDone : HandshakeInv sFlying ∧ sFlying.inflight = some w3 ∧ s0.inflight = none :=
  ⟨⟨by decide, by decide, by decide⟩, rfl, rfl⟩

/-- SyncClearsBusy: each clause, the last one with a waveform offered, in flight and finished. -/
theorem witness_Sync :
    (HandshakeInv sDone ∧ sDone.donePending = true) ∧ s0.donePending = false
    ∧ (HandshakeInv sOffered ∧ sOffered.startPending.isSome = true)
    ∧ (HandshakeInv sFlying ∧ sFlying.inflight.isSome = true) :=
  ⟨⟨⟨by decide, by decide, by decide⟩, rfl⟩, rfl, ⟨⟨by decide, by decide, by decide⟩, rfl⟩,
    ⟨⟨by decide, by decide, by decide⟩, rfl⟩⟩

/-- StepRunsTheDecodedInstruction: both clauses. -/
theorem witness_StepRuns :
    { s0 with schedule := [encode .tick] }.schedule = encode .tick :: [] ∧ decode (encode .tick) = .instr .tick
    ∧ decodeTableWord 8 1 = some .tick := by decide

/-- MalformedWordIsReportedAndHarmless. -/
theorem witness_Malformed :
    { s0 with schedule := [cmdStep 0#64] }.schedule = cmdStep 0#64 :: []
    ∧ decode (cmdStep 0#64) = .malformed (.reservedOp 0#4) := by decide

/-- The statements that a step keeps an invariant: a state in the middle of a transmission, and its step. -/
theorem witness_InvariantsKept :
    BlockInv { sOffered with schedule := [encode .txAccept] }
    ∧ ∃ t, step { sOffered with schedule := [encode .txAccept] } = .next t :=
  have h := witness_block_inv
  ⟨⟨⟨h.handshake.1, h.handshake.2, h.handshake.3⟩, h.conserved,
    ⟨h.txlog.1, h.txlog.2, h.txlog.3, h.txlog.4, h.txlog.5⟩, h.table, ⟨h.depth.1, h.depth.2⟩,
    ⟨h.report.1, h.report.2⟩⟩, _, rfl⟩

/-- TransmissionRecordKept: its two invariants. -/
theorem witness_TransmissionRecord : HandshakeInv sOffered ∧ TxlogInv sOffered :=
  ⟨witness_block_inv.handshake, witness_block_inv.txlog⟩

/-- TimingTableKept: the table of RESET, and one of its durations. -/
theorem witness_TimingTable : TableInv sOffered ∧ (2280 : Nat) ∈ sOffered.tt.durations := ⟨rfl, by decide⟩

/-- StickyBitsClearedByResetOnly: each clause's change of a bit. -/
theorem witness_StickyBits :
    look (·.malformedSeen) (runWord (encode .tick) { s0 with malformedSeen := true }) = some true
    ∧ look (·.malformedSeen) (runWord (cmdStep 0#64) s0) = some true
    ∧ look (·.faultOverflow) (runWord (encode (.socket 0#8 true))
        { State.afterReset cfg16 with fifo := List.replicate 7 w3 }) = some true
    ∧ look (·.faultTxStart) (runWord (encode .txReject) sOffered) = some true
    ∧ (encode .tick).label ≠ 0b111#3 := by decide

/-- BusyIsWrittenByTickSyncAndResetOnly: busy set by TICK, cleared by SYNC and by RESET. -/
theorem witness_BusyWriters :
    (sQueued.busy = false ∧ look (·.busy) (runWord (encode .tick) sQueued) = some true)
    ∧ (sDone.busy = true ∧ look (·.busy) (runWord (encode .sync) sDone) = some false)
    ∧ look (·.busy) (runWord (encode .reset) sDone) = some false := by decide

/-- EachFieldIsWrittenByItsAgentsOnly: a step of an agent other than the reset source, for each changed field. -/
theorem witness_FieldWriters :
    agentOfLabel (encode .tick).label ≠ .resetSource
    ∧ look (fun t => (t.fifo.length, t.startPending.isSome, t.popped.length)) (runWord (encode .tick) sQueued)
        = some (9, true, 1)
    ∧ look (fun t => (t.inflight.isSome, t.txlog.length)) (runWord (encode .txAccept) sOffered) = some (true, 1)
    ∧ look (·.donePending) (runWord (encode .sync) sDone) = some false
    ∧ look (·.faultTxStart) (runWord (encode .txReject) sOffered) = some true
    ∧ look (·.malformedSeen) (runWord (cmdStep 0#64) s0) = some true := by decide

/-- NoStepDependsOnTheStickyBits: an instruction with a next state, RESET, and a refused one. -/
theorem witness_NoStepDepends :
    Instr.tick ≠ .statusRd ∧ Instr.tick ≠ .reset ∧ Instr.reset ≠ .statusRd ∧ exec .tick sQueued = .next sOffered
    ∧ exec .txDone s0 = .refused .nothingInFlight :=
  ⟨by decide, by decide, by decide, rfl, rfl⟩

/-- NoStepReadsTheRecords: a malformed word and a TX_ACCEPT with a next state, RESET, and a refused step. -/
theorem witness_NoStepReads :
    (∃ t, runWord (cmdStep 0#64) sOffered = .next t) ∧ decode (cmdStep 0#64) ≠ .instr .reset
    ∧ runWord (encode .txAccept) sOffered = .next sFlying ∧ decode (encode .txAccept) ≠ .instr .reset
    ∧ decode (encode .reset) = .instr .reset ∧ runWord (encode .txDone) s0 = .refused .nothingInFlight :=
  ⟨⟨_, rfl⟩, by decide, rfl, by decide, by decide, rfl⟩

/-- NoCancellation: a step while a waveform is in flight, under the handshake invariant. -/
theorem witness_NoCancellation :
    HandshakeInv sFlying ∧ sFlying.inflight = some w3 ∧ runWord (encode .tick) sFlying = .next sFlying
    ∧ decode (encode .tick) ≠ .instr .reset ∧ decode (encode .tick) ≠ .instr .txDone
    ∧ decode (encode .tick) ≠ .instr .txAccept
    ∧ decode (encode .statusRd) ≠ .instr .tick :=
  ⟨⟨by decide, by decide, by decide⟩, rfl, rfl, by decide, by decide, by decide, by decide⟩

/-- SocketPacketUsesTheLowNibbleOnly: two ids with one low nibble. -/
theorem witness_LowNibble : (0x0F#8).toNat % 16 = (0xFF#8).toNat % 16 := by decide

/-- ConfigurationAndWaveformsFixed: a schedule that runs, from a state with the table of RESET. -/
theorem witness_ConfigurationFixed :
    TableInv sQueued ∧ runWords [encode .tick, encode .txAccept] sQueued = .next sFlying := ⟨rfl, rfl⟩

/-- NoSecondStartBeforeDoneAndSync: an offer, and a schedule that starts a second waveform. -/
theorem witness_NoSecondStart :
    HandshakeInv sOffered ∧ sOffered.startPending.isSome = true
    ∧ (∀ w ∈ [encode .txAccept, encode .txDone, encode .sync, encode .tick], decode w ≠ .instr .reset)
    ∧ ∃ t, runWords [encode .txAccept, encode .txDone, encode .sync, encode .tick] sOffered = .next t
      ∧ t.popped ≠ sOffered.popped :=
  ⟨witness_block_inv.handshake, rfl, by decide, _, rfl, by decide⟩

/-- NothingStartsWhileTransmitting: busy, and a schedule with neither SYNC nor RESET. -/
theorem witness_NothingStarts :
    sOffered.busy = true ∧ (∀ w ∈ [encode .tick, encode .txAccept], decode w ≠ .instr .sync ∧ decode w ≠ .instr .reset)
    ∧ runWords [encode .tick, encode .txAccept] sOffered = .next sFlying := ⟨rfl, by decide, rfl⟩

/-- BusyForeverWithoutCompletion. -/
theorem witness_BusyForever :
    sOffered.busy = true ∧ sOffered.donePending = false
    ∧ (∀ w ∈ [encode .tick, encode .txAccept], decode w ≠ .instr .txDone ∧ decode w ≠ .instr .reset)
    ∧ runWords [encode .tick, encode .txAccept] sOffered = .next sFlying := ⟨rfl, rfl, by decide, rfl⟩

/-- FailedStartStopsDispatchUntilReset: after a rejected start. -/
theorem witness_FailedStart :
    HandshakeInv sFailed ∧ sFailed.faultTxStart = true ∧ (∀ w ∈ [encode .tick], decode w ≠ .instr .reset)
    ∧ runWords [encode .tick] sFailed = .next sFailed :=
  ⟨⟨by decide, by decide, by decide⟩, rfl, by decide, rfl⟩

/-- IdleAndEmptyMeansEverythingWasSent: all six Beep copies sent. -/
def sSent : State :=
  { sLast with fifo := [], txlog := List.replicate 5 wBeep ++ [wBeep], popped := List.replicate 5 wBeep ++ [wBeep] }

theorem witness_block_inv_sent : BlockInv sSent where
  handshake := ⟨by decide, by decide, by decide⟩
  conserved := rfl
  txlog := ⟨fun w h => (by cases h), fun h => (by cases h), fun _ _ => rfl, fun w h => (by cases h),
    fun h => (by cases h)⟩
  table := rfl
  depth := ⟨fun d h => (by cases h), fun _ => rfl⟩
  report := ⟨rfl, rfl⟩

theorem witness_IdleAndEmpty :
    BlockInv sSent ∧ (statusWord sSent).getLsbD 0 = false ∧ (statusWord sSent).getLsbD 1 = true :=
  ⟨witness_block_inv_sent, by decide, by decide⟩

/-- XmitsDrainTheQueueInOrder: both clauses. -/
theorem witness_Xmit :
    sQueued.busy = false ∧ sQueued.fifo = w3 :: List.replicate 9 w3 ∧ sQueued.startPending = none
    ∧ sQueued.inflight = none ∧ sQueued.donePending = false := ⟨rfl, rfl, rfl, rfl, rfl⟩

/-- CommandsCommuteWithTheTransmitter: each of the four steps enabled. -/
theorem witness_CommandsCommute :
    enabled .txAccept sOffered = true ∧ enabled .txReject sOffered = true ∧ enabled .txDone sFlying = true
    ∧ enabled .sync sDone = true := by decide

/-- CoincidingStepsMayTakeEitherOrder: both clauses. -/
theorem witness_CoincidingSteps :
    (sDone.busy = true ∧ sDone.donePending = true ∧ sDone.fifo = w3 :: List.replicate 8 w3)
    ∧ (s0.busy = false ∧ s0.fifo = [] ∧ s0.cfg.params.queueDepth = .unbounded) :=
  ⟨⟨rfl, rfl, rfl⟩, rfl, rfl, rfl⟩

/-- AssemblerKeepsOperandsOrRefuses: the ends of each range, and just beyond. -/
theorem witness_Assembler :
    ((255 : Nat) ≤ 255 ∧ (255 : Nat) < 256) ∧ ((65535 : Nat) ≤ 65535 ∧ (255 : Nat) ≤ 255)
    ∧ ((65535 : Nat) < 65536 ∨ (255 : Nat) < 0 ∨ (255 : Nat) < 0 ∨ (65535 : Nat) < 0)
    ∧ (2 ^ 64 - 1 : Nat) < 2 ^ 64 ∧ (2 ^ 64 : Nat) ≤ 2 ^ 64 := by decide

/-- XMIT with an offer already pending: TX_ACCEPT is enabled (R175), so the four steps run to their end (assumption 19). -/
theorem test_xmit_with_an_offer_pending :
    look (fun t => (t.busy, t.txlog.length, t.fifo.length)) (runWords (expandLine .xmit) sOffered)
      = some (false, 1, 9) := by decide

/-- An infinite run: the last Beep copy is transmitted, then TICK for ever. -/
def lastStates : Nat → State
  | 0 => sLast
  | 1 => { sLast with busy := true, fifo := [], startPending := some wBeep, popped := sSent.popped }
  | 2 => { sSent with busy := true, inflight := some wBeep }
  | 3 => { sSent with busy := true, donePending := true }
  | _ + 4 => sSent

/-- Its steps. -/
def lastSteps : Nat → StepWord
  | 0 => encode .tick
  | 1 => encode .txAccept
  | 2 => encode .txDone
  | 3 => encode .sync
  | _ + 4 => encode .tick

/-- EveryEnqueuedWaveformIsTransmitted: the run meets every hypothesis. -/
theorem witness_EveryEnqueued :
    IsRun lastStates lastSteps ∧ BlockInv (lastStates 0) ∧ (∀ n, decode (lastSteps n) ≠ .instr .reset)
    ∧ (∀ n, (lastStates n).faultTxStart = false) ∧ TickFair lastSteps ∧ SyncFair lastStates lastSteps
    ∧ TxFair lastStates lastSteps := by
  refine ⟨fun n => ?_, witness_block_inv_last, fun n => ?_, fun n => ?_, fun n => ⟨n + 4, by omega, rfl⟩,
    fun n h => ?_, fun n w h => ?_, fun n w h => ?_⟩
  · match n with
    | 0 => rfl
    | 1 => rfl
    | 2 => rfl
    | 3 => rfl
    | _ + 4 => rfl
  · match n with
    | 0 => decide
    | 1 => decide
    | 2 => decide
    | 3 => decide
    | _ + 4 => exact (by decide : decode (encode .tick) ≠ .instr .reset)
  · match n with
    | 0 => rfl
    | 1 => rfl
    | 2 => rfl
    | 3 => rfl
    | _ + 4 => rfl
  · exact absurd (h (n + 4) (by omega)) (by simp [lastStates, sSent, sLast, s0])
  · match n with
    | 0 => cases h
    | 1 => exact ⟨1, by omega, rfl, fun k h1 h2 => by rw [show k = 1 by omega]; exact h⟩
    | 2 => cases h
    | 3 => cases h
    | _ + 4 => cases h
  · match n with
    | 0 => cases h
    | 1 => cases h
    | 2 => exact ⟨2, by omega, rfl, fun k h1 h2 => by rw [show k = 2 by omega]; exact h⟩
    | 3 => cases h
    | _ + 4 => cases h

/-- TxFairRunsLoseNoOfferedOrInFlightWaveform: a fair run that transmits (above), and one that takes RESET for ever. -/
theorem witness_TxFairRuns :
    (IsRun lastStates lastSteps ∧ TxFair lastStates lastSteps)
    ∧ IsRun (fun _ => s0) (fun _ => encode .reset) ∧ TxFair (fun _ => s0) (fun _ => encode .reset)
    ∧ decode (encode .reset) = .instr .reset :=
  ⟨⟨witness_EveryEnqueued.1, witness_EveryEnqueued.2.2.2.2.2.2⟩, fun _ => rfl,
    ⟨fun _ _ h => (by cases h), fun _ _ h => (by cases h)⟩, rfl⟩

/-- The run of the review: the first offer is rejected, and after RESET and a command a second one is accepted. -/
def secondOfferSteps : Nat → StepWord
  | 0 => encode .txReject
  | 1 => encode .reset
  | 2 => encode (.socket 3#8 true)
  | 3 => encode .tick
  | 4 => encode .txAccept
  | 5 => encode .txDone
  | 6 => encode .sync
  | _ + 7 => encode .statusRd

/-- No run with these steps from an offer is fair: the TX_ACCEPT of the second offer does not answer the first. -/
theorem test_second_offer_does_not_answer_the_first (σ : Nat → State) (h0 : σ 0 = sOffered)
    (h1 : σ 1 = sFailed) : ¬ TxFair σ secondOfferSteps := by
  intro h
  obtain ⟨m, -, hm, hk⟩ := h.accepts 0 w3 (by rw [h0]; rfl)
  have hm1 : 1 ≤ m := by
    cases m with
    | zero => exact absurd hm (by decide)
    | succ m => omega
  have hp := hk 1 (by omega) hm1
  rw [h1] at hp
  cases hp

end Sys2Proof.Tests
end

section
/-! SUPPORT. What a step of the machine is, as a `Move` in both directions; where a step is refused; and which label
a decoded word carries. -/

namespace Sys2Proof.Machine

open Sys2Proof

/-- A step of the machine is a move from the state with the presented word taken off the schedule (R86). -/
theorem step_moves {s t : State} (h : step s = .next t) :
    ∃ w rest, Move w { s with schedule := rest } t := by
  obtain ⟨w, rest, -, hr⟩ := step_next h
  exact ⟨w, rest, runWord_moves hr⟩

/-- What every move keeps, and what does not look at the schedule, every step keeps. -/
theorem step_keeps {P : State → Prop} (hsched : ∀ s ws, P s → P { s with schedule := ws })
    (hmove : ∀ {w s t}, Move w s t → P s → P t) {s t : State} (hp : P s) (h : step s = .next t) : P t := by
  obtain ⟨_, rest, hm⟩ := step_moves h
  exact hmove hm (hsched s rest hp)

/-- A word that decodes to an instruction runs it (R79). -/
theorem runWord_of_decode {w : StepWord} {i : Instr} (hd : decode w = .instr i) (s : State) :
    runWord w s = exec i s := by
  simp only [runWord, hd]

/-- Every move is the step of its word: with `runWord_moves`, `Move` is exactly the step relation. -/
theorem Move.runWord_eq {w : StepWord} {s t : State} (h : Move w s t) : runWord w s = .next t := by
  cases h with
  | accepted c hd hq =>
    simp [runWord_of_decode hd, exec_command, enqueueCommand, fifoPushN_of_within hq, answer]
  | full c hd hq =>
    simp [runWord_of_decode hd, exec_command, enqueueCommand, fifoPushN_of_beyond hq, answer]
  | malformed why hd => simp only [runWord, hd]; rfl
  | start v rest hd hb hf => rw [runWord_of_decode hd]; exact execTick_start hb hf
  | poll hd h => rw [runWord_of_decode hd]; exact execTick_idle h
  | accept v hd hp => simp [runWord_of_decode hd, exec, execTxAccept, hp]
  | reject v hd hp => simp [runWord_of_decode hd, exec, execTxReject, hp, raiseFault]
  | done v hd hp => simp [runWord_of_decode hd, exec, execTxDone, hp]
  | sync hd hp => simp [runWord_of_decode hd, exec, execSync, hp, clearBusy]
  | status hd => rw [runWord_of_decode hd]; rfl
  | reset hd => rw [runWord_of_decode hd]; rfl

/-- An instruction is refused exactly where its rule gives it no move (R175 to R178). -/
theorem exec_refused_iff {i : Instr} {s : State} {r : Refusal} :
    exec i s = .refused r ↔
      ((i = .txAccept ∨ i = .txReject) ∧ s.startPending = none ∧ r = .noOfferPending)
      ∨ (i = .txDone ∧ s.inflight = none ∧ r = .nothingInFlight)
      ∨ (i = .sync ∧ s.donePending = false ∧ r = .noCompletionPending) := by
  cases i with
  | socket id on => simp [exec, execSocket]
  | collar id ch act x dur => simp [exec, execCollar]
  | tick => obtain ⟨_, _, -, -, he⟩ | ⟨-, he⟩ := execTick_cases s <;> simp [exec, he]
  | txAccept => cases hp : s.startPending <;> simp [exec, execTxAccept, hp, eq_comm (a := r)]
  | txReject => cases hp : s.startPending <;> simp [exec, execTxReject, hp, eq_comm (a := r)]
  | txDone => cases hp : s.inflight <;> simp [exec, execTxDone, hp, eq_comm (a := r)]
  | sync => cases hp : s.donePending <;> simp [exec, execSync, hp, eq_comm (a := r)]
  | statusRd => simp [exec, execStatusRd]
  | reset => simp [exec, execReset]

/-- A word is refused exactly where it decodes to an instruction that is; a malformed word never is (R155). -/
theorem runWord_refused_iff {w : StepWord} {s : State} {r : Refusal} :
    runWord w s = .refused r ↔ ∃ i, decode w = .instr i ∧ exec i s = .refused r := by
  cases hd : decode w with
  | instr i => simp [runWord, hd]
  | malformed why => simp [runWord, hd, execMalformed]

/-- The decoder reads back what the encoder writes (R72, R73, R79). -/
theorem decode_encode (i : Instr) : decode (encode i) = .instr i := by
  cases i with
  | socket id on =>
    obtain ⟨hop, hres, hon, hid⟩ := socketWord_fields id on
    simp only [decode, encode, decodeCommand, hop, hres, hon, hid, if_true]
  | collar id ch act x dur =>
    obtain ⟨hop, hres, hdur, hx, hact, hch, hid⟩ := collarWord_fields id ch act x dur
    simp [decode, encode, decodeCommand, hop, hres, hdur, hx, hact, hch, hid, actionOfField_fieldOfAction]
  | tick | txAccept | txReject | txDone | sync | statusRd | reset => rfl

/-- The encoding of an instruction runs it. -/
theorem runWord_encode (i : Instr) (s : State) : runWord (encode i) s = exec i s :=
  runWord_of_decode (decode_encode i) s

/-- A command word decodes to a command, or it is malformed (R82). -/
theorem decodeCommand_cases (p : CmdWord) :
    (∃ c : Command, decodeCommand p = .instr c.instr) ∨ ∃ why, decodeCommand p = .malformed why := by
  unfold decodeCommand
  dsimp only
  split
  · split
    · exact .inl ⟨.socket _ _, rfl⟩
    · exact .inr ⟨_, rfl⟩
  · split
    · split
      · exact .inl ⟨.collar _ _ _ _ _, rfl⟩
      · exact .inr ⟨_, rfl⟩
    · exact .inr ⟨_, rfl⟩

/-- A word that decodes to an instruction carries that instruction's label (R79). -/
theorem label_of_decode_instr {w : StepWord} {i : Instr} (hd : decode w = .instr i) :
    w.label = (encode i).label := by
  unfold decode at hd
  split at hd
  · next hl =>
    obtain ⟨c, hc⟩ | ⟨why, hc⟩ := decodeCommand_cases w.payload
    · obtain rfl : c.instr = i := by simpa [hc] using hd
      cases c <;> exact hl
    · simp [hc] at hd
  · repeat' split at hd
    all_goals cases hd; simp only [encode]; bv_omega

/-- Only a CMD step is malformed (R76, R77, R79). -/
theorem label_of_decode_malformed {w : StepWord} {why : Malformed} (hd : decode w = .malformed why) :
    w.label = 0b000#3 := by
  unfold decode at hd
  split at hd
  · assumption
  · repeat' split at hd
    all_goals cases hd

end Sys2Proof.Machine
end

section
/-! SUPPORT. Each invariant of the block (Safety.lean): what it says of a state with one of the three places taken,
that RESET establishes it and that every move keeps it. -/

namespace Sys2Proof.Machine

open Sys2Proof

/-- RESET establishes every invariant, whatever the state was (R235). -/
theorem blockInv_resetRecord (s : State) : BlockInv (resetRecord s) where
  handshake := ⟨by simp [placesTaken], by simp, by simp⟩
  conserved := by simp [FifoConserved, enqueuedSinceReset]
  txlog := ⟨by simp, by simp, by simp, by simp, by simp⟩
  table := rfl
  depth := ⟨by simp, by simp⟩
  report := ⟨by simp, by simp⟩

/-! ### The handshake (R35) -/

/-- Idle, nothing is offered, in flight or finished, and no start has failed. -/
theorem HandshakeInv.quiet_of_idle {s : State} (h : HandshakeInv s) (hb : s.busy = false) :
    s.startPending = none ∧ s.inflight = none ∧ s.donePending = false ∧ s.faultTxStart = false := by
  simpa [hb, and_assoc] using h.busy_iff

/-- With a place taken, the block is busy and no start has failed. -/
theorem HandshakeInv.busy_of_taken {s : State} (h : HandshakeInv s) (ht : 0 < placesTaken s) :
    s.busy = true ∧ s.faultTxStart = false := by
  constructor
  · cases hb : s.busy with
    | true => rfl
    | false =>
      obtain ⟨hp, hi, hd, -⟩ := h.quiet_of_idle hb
      simp [placesTaken, hp, hi, hd] at ht
  · cases hx : s.faultTxStart with
    | false => rfl
    | true =>
      have hnone := h.fault_quiet hx
      omega

/-- While a waveform is offered, the other two places are empty. -/
theorem HandshakeInv.of_offered {s : State} {v : Waveform} (h : HandshakeInv s) (hp : s.startPending = some v) :
    s.busy = true ∧ s.inflight = none ∧ s.donePending = false ∧ s.faultTxStart = false := by
  obtain ⟨hb, hx⟩ := h.busy_of_taken (by simp [placesTaken, hp])
  have hone := h.exclusive
  simp only [placesTaken, hp, Option.isSome_some, Bool.toNat_true] at hone
  have hothers : s.inflight.isSome.toNat = 0 ∧ s.donePending.toNat = 0 := by omega
  obtain ⟨hi, hd⟩ : s.inflight = none ∧ s.donePending = false := by simpa using hothers
  exact ⟨hb, hi, hd, hx⟩

/-- While a waveform is in flight, the other two places are empty. -/
theorem HandshakeInv.of_inflight {s : State} {v : Waveform} (h : HandshakeInv s) (hp : s.inflight = some v) :
    s.busy = true ∧ s.startPending = none ∧ s.donePending = false ∧ s.faultTxStart = false := by
  obtain ⟨hb, hx⟩ := h.busy_of_taken (by simp [placesTaken, hp])
  have hone := h.exclusive
  simp only [placesTaken, hp, Option.isSome_some, Bool.toNat_true] at hone
  have hothers : s.startPending.isSome.toNat = 0 ∧ s.donePending.toNat = 0 := by omega
  obtain ⟨hs, hd⟩ : s.startPending = none ∧ s.donePending = false := by simpa using hothers
  exact ⟨hb, hs, hd, hx⟩

/-- While a completion is pending, the other two places are empty. -/
theorem HandshakeInv.of_done {s : State} (h : HandshakeInv s) (hp : s.donePending = true) :
    s.busy = true ∧ s.startPending = none ∧ s.inflight = none ∧ s.faultTxStart = false := by
  obtain ⟨hb, hx⟩ := h.busy_of_taken (by simp [placesTaken, hp])
  have hone := h.exclusive
  simp only [placesTaken, hp, Bool.toNat_true] at hone
  have hothers : s.startPending.isSome.toNat = 0 ∧ s.inflight.isSome.toNat = 0 := by omega
  obtain ⟨hs, hi⟩ : s.startPending = none ∧ s.inflight = none := by simpa using hothers
  exact ⟨hb, hs, hi, hx⟩

/-- A move hands the one waveform on from place to place, so it keeps the handshake invariant. -/
theorem Move.keeps_handshakeInv {w : StepWord} {s t : State} (hm : Move w s t) (h : HandshakeInv s) :
    HandshakeInv t := by
  cases hm with
  | accepted | full | malformed | poll | status => exact ⟨h.exclusive, h.busy_iff, h.fault_quiet⟩
  | start v rest hd hb hf =>
    obtain ⟨hp, hi, hd, hx⟩ := h.quiet_of_idle hb
    exact ⟨by simp [placesTaken, hi, hd], by simp, by simp [hx]⟩
  | accept v hd hp =>
    obtain ⟨hb, hi, hd, hx⟩ := h.of_offered hp
    exact ⟨by simp [placesTaken, hd], by simp [hb], by simp [hx]⟩
  | reject v hd hp =>
    obtain ⟨hb, hi, hd, hx⟩ := h.of_offered hp
    exact ⟨by simp [placesTaken, hi, hd], by simp [hb], by simp [placesTaken, hi, hd]⟩
  | done v hd hp =>
    obtain ⟨hb, hp, hd, hx⟩ := h.of_inflight hp
    exact ⟨by simp [placesTaken, hp], by simp [hb], by simp [hx]⟩
  | sync hd hp =>
    obtain ⟨hb, hp, hi, hx⟩ := h.of_done hp
    exact ⟨by simp [placesTaken, hp, hi], by simp [hp, hi, hx], by simp [hx]⟩
  | reset hd => exact (blockInv_resetRecord s).handshake

/-! ### The transmission record (R185 item 2) -/

/-- A move keeps the transmission record: a start pops what TX_ACCEPT then appends to `txlog`. -/
theorem Move.keeps_txlogInv {w : StepWord} {s t : State} (hm : Move w s t) (hh : HandshakeInv s) (h : TxlogInv s) :
    TxlogInv t := by
  cases hm with
  | accepted | full | malformed | poll | status =>
    exact ⟨h.offered, h.rejected, h.settled, h.holding, h.finished⟩
  | start v rest hd hb hf =>
    obtain ⟨hp, hi, hd, hx⟩ := hh.quiet_of_idle hb
    have hsent : s.popped = s.txlog := h.settled hp hx
    exact ⟨by simp [hsent], by simp [hx], by simp, by simp [hi], by simp [hd]⟩
  | accept v hd hp =>
    obtain ⟨-, -, hd, hx⟩ := hh.of_offered hp
    have hlast : s.popped = s.txlog ++ [v] := h.offered v hp
    exact ⟨by simp, by simp [hx], by simp [hlast], by simp, by simp⟩
  | reject v hd hp => exact ⟨by simp, fun _ => ⟨v, h.offered v hp⟩, by simp, h.holding, h.finished⟩
  | done v hd hp =>
    have hsome : s.txlog ≠ [] := fun he => by simpa [he] using h.holding v hp
    exact ⟨h.offered, h.rejected, h.settled, by simp, fun _ => hsome⟩
  | sync hd hp => exact ⟨h.offered, h.rejected, h.settled, h.holding, by simp⟩
  | reset hd => exact (blockInv_resetRecord s).txlog

/-- `popped` is `txlog`, or `txlog` and the one waveform that is offered or was rejected. -/
theorem TxlogInv.popped_cases {s : State} (h : TxlogInv s) :
    s.popped = s.txlog ∨ ∃ v, s.popped = s.txlog ++ [v] := by
  cases hp : s.startPending with
  | some v => exact .inr ⟨v, h.offered v hp⟩
  | none =>
    cases hx : s.faultTxStart with
    | true => exact .inr (h.rejected hx)
    | false => exact .inl (h.settled hp hx)

/-! ### The configuration and the timing table (R23, R231) -/

/-- No move changes the configuration (R231). -/
theorem Move.cfg_eq {w : StepWord} {s t : State} (hm : Move w s t) : t.cfg = s.cfg := by
  cases hm <;> rfl

/-- Only RESET writes the table (R61), and it writes the one of the configuration. -/
theorem Move.keeps_tableInv {w : StepWord} {s t : State} (hm : Move w s t) (h : TableInv s) : TableInv t := by
  cases hm with
  | reset hd => rfl
  | _ => exact h

/-- Every duration of the table RESET builds fits, since the configuration is valid (R133). -/
theorem TableInv.durations_fit {s : State} (h : TableInv s) {d : Nat} (hd : d ∈ s.tt.durations) :
    1 ≤ d ∧ d ≤ 2 ^ s.cfg.params.tickW - 1 := by
  have hall : ∀ x ∈ (buildTable s.cfg.params.clkHz).durations, durationFits s.cfg.params.tickW x = true :=
    List.all_eq_true.mp s.cfg.valid
  rw [h] at hd
  simpa [durationFits] using hall d hd

/-! ### The capacity and the report bits (R24, R30, R31) -/

/-- A move keeps the capacity: FifoPushN tests it, TICK shortens the FIFO. -/
theorem Move.keeps_depthInv {w : StepWord} {s t : State} (hm : Move w s t) (h : DepthInv s) : DepthInv t := by
  cases hm with
  | accepted c hd hq =>
    refine ⟨fun d hf => ?_, h.no_overflow⟩
    change s.cfg.params.queueDepth = .finite d at hf
    simpa [hf, withinDepth_finite] using hq
  | full c hd hq =>
    refine ⟨h.within, fun hu => ?_⟩
    change s.cfg.params.queueDepth = .unbounded at hu
    simp [hu, withinDepth_unbounded] at hq
  | start v rest hd hb hf =>
    refine ⟨fun d hq => ?_, h.no_overflow⟩
    have hlen : (v :: rest).length ≤ d := hf ▸ h.within d hq
    exact Nat.le_of_succ_le hlen
  | reset hd => exact (blockInv_resetRecord s).depth
  | malformed | poll | accept | reject | done | sync | status => exact ⟨h.within, h.no_overflow⟩

/-- A move sets a report bit exactly with the answer it reports. -/
theorem Move.keeps_reportInv {w : StepWord} {s t : State} (hm : Move w s t) (h : ReportInv s) : ReportInv t := by
  obtain ⟨hmal, hfull⟩ := h
  cases hm with
  | accepted | full | malformed | status =>
    exact ⟨by simp [isMalformedAck, hmal], by simp [isFullAck, hfull]⟩
  | start | poll | accept | reject | done | sync => exact ⟨hmal, hfull⟩
  | reset hd => exact (blockInv_resetRecord s).report

end Sys2Proof.Machine
end

section
/-! SUPPORT. What the STATUS word says (R32), and which state a step does not read: the sticky bits (R33) and the
records (R34, R185). -/

namespace Sys2Proof.Machine

open Sys2Proof

/-- The status bits, from bit 0 up: BUSY, EMPTY, MALFORMED_SEEN, FAULT_TX_START, FAULT_OVERFLOW (R32). -/
theorem statusBits_getLsbD (s : State) :
    (statusBits s).getLsbD 0 = s.busy ∧ (statusBits s).getLsbD 1 = decide (s.fifo.length = 0)
    ∧ (statusBits s).getLsbD 2 = s.malformedSeen ∧ (statusBits s).getLsbD 3 = s.faultTxStart
    ∧ (statusBits s).getLsbD 4 = s.faultOverflow := by
  have hempty : s.fifo.isEmpty = decide (s.fifo.length = 0) := by cases s.fifo <;> simp
  simp only [statusBits, BitVec.getLsbD_append, hempty]
  simp

/-- The five low bits of the STATUS word are the status bits (R32). -/
theorem statusWord_getLsbD_of_lt {k : Nat} (s : State) (hk : k < 5) :
    (statusWord s).getLsbD k = (statusBits s).getLsbD k := by
  rw [statusWord, BitVec.getLsbD_append, if_pos hk]

/-- The five flags in the STATUS word (R32). -/
theorem statusWord_flags (s : State) :
    (statusWord s).getLsbD 0 = s.busy ∧ (statusWord s).getLsbD 1 = decide (s.fifo.length = 0)
    ∧ (statusWord s).getLsbD 2 = s.malformedSeen ∧ (statusWord s).getLsbD 3 = s.faultTxStart
    ∧ (statusWord s).getLsbD 4 = s.faultOverflow := by
  simp (disch := decide) only [statusWord_getLsbD_of_lt]
  exact statusBits_getLsbD s

/-- The STATUS word as a number, in its three fields (R32). -/
theorem statusWord_toNat (s : State) :
    (statusWord s).toNat = min s.fifo.length (2 ^ 32 - 1) * 2 ^ 32 + (statusBits s).toNat := by
  simp only [statusWord, pendingField, toNat_append_add, BitVec.toNat_ofNat]
  omega

/-- The reserved bits of the STATUS word are 0 (R32). -/
theorem statusWord_reserved (s : State) : (statusWord s).extractLsb' 5 27 = 0#27 := by
  have hbits := (statusBits s).isLt
  apply BitVec.eq_of_toNat_eq
  rw [toNat_slice, statusWord_toNat, BitVec.toNat_ofNat]
  omega

/-- PENDING is the upper half of the STATUS word (R32). -/
theorem statusWord_pending (s : State) :
    ((statusWord s).extractLsb' 32 32).toNat = min s.fifo.length (2 ^ 32 - 1) := by
  have hbits := (statusBits s).isLt
  rw [toNat_slice, statusWord_toNat]
  omega

/-! ### The sticky bits (R33) -/

/-- The state with other values in the three sticky bits. -/
def State.withSticky (s : State) (m o x : Bool) : State :=
  { s with malformedSeen := m, faultOverflow := o, faultTxStart := x }

/-- From `s` to `t` some sticky bits are set, and the same word makes the same move, setting the same bits, when they
hold `m`, `o` and `x` before it. -/
def BlindToSticky (w : StepWord) (s t : State) (m o x : Bool) : Prop :=
  ∃ setM setO setX : Bool,
    t.malformedSeen = (s.malformedSeen || setM) ∧ t.faultOverflow = (s.faultOverflow || setO)
    ∧ t.faultTxStart = (s.faultTxStart || setX)
    ∧ Move w (s.withSticky m o x) (t.withSticky (m || setM) (o || setO) (x || setX))

/-- A move that sets no sticky bit. -/
theorem BlindToSticky.of_none_set {w : StepWord} {s t : State} {m o x : Bool}
    (hm : Move w (s.withSticky m o x) (t.withSticky m o x)) (hmal : t.malformedSeen = s.malformedSeen)
    (hover : t.faultOverflow = s.faultOverflow) (hstart : t.faultTxStart = s.faultTxStart) :
    BlindToSticky w s t m o x :=
  ⟨false, false, false, by simp [hmal], by simp [hover], by simp [hstart], by simpa using hm⟩

/-- Every move but the status read and RESET is the same with other sticky bits: its guard reads none of them. -/
theorem Move.blindToSticky {w : StepWord} {s t : State} (hm : Move w s t) (hs : decode w ≠ .instr .statusRd)
    (hr : decode w ≠ .instr .reset) (m o x : Bool) : BlindToSticky w s t m o x := by
  cases hm with
  | accepted c hd hq => exact .of_none_set (.accepted c hd hq) rfl rfl rfl
  | full c hd hq =>
    refine ⟨false, true, false, by simp, by simp, by simp, ?_⟩
    simp only [Bool.or_false, Bool.or_true]
    exact .full c hd hq
  | malformed why hd =>
    refine ⟨true, false, false, by simp, by simp, by simp, ?_⟩
    simp only [Bool.or_false, Bool.or_true]
    exact .malformed why hd
  | start v rest hd hb hf => exact .of_none_set (.start v rest hd hb hf) rfl rfl rfl
  | poll hd h => exact .of_none_set (.poll hd h) rfl rfl rfl
  | accept v hd hp => exact .of_none_set (.accept v hd hp) rfl rfl rfl
  | reject v hd hp =>
    refine ⟨false, false, true, by simp, by simp, by simp, ?_⟩
    simp only [Bool.or_false, Bool.or_true]
    exact .reject v hd hp
  | done v hd hp => exact .of_none_set (.done v hd hp) rfl rfl rfl
  | sync hd hp => exact .of_none_set (.sync hd hp) rfl rfl rfl
  | status hd => exact absurd hd hs
  | reset hd => exact absurd hd hr

/-! ### The records (R34, R185) -/

/-- The state with other records. -/
def State.withRecords (s : State) (l p : List Waveform) (a : List PortAnswer) : State :=
  { s with txlog := l, popped := p, portlog := a }

/-- From `s` to `t` the records grow, and the same word makes the same move, appending the same, when they hold `l`,
`p` and `a` before it. -/
def BlindToRecords (w : StepWord) (s t : State) (l p : List Waveform) (a : List PortAnswer) : Prop :=
  ∃ (sent taken : List Waveform) (said : List PortAnswer),
    t.txlog = s.txlog ++ sent ∧ t.popped = s.popped ++ taken ∧ t.portlog = s.portlog ++ said
    ∧ Move w (s.withRecords l p a) (t.withRecords (l ++ sent) (p ++ taken) (a ++ said))

/-- A move that appends to the port record alone. -/
theorem BlindToRecords.of_said {w : StepWord} {s t : State} {l p : List Waveform} {a : List PortAnswer}
    (said : List PortAnswer) (hm : Move w (s.withRecords l p a) (t.withRecords l p (a ++ said)))
    (hlog : t.txlog = s.txlog) (hpop : t.popped = s.popped) (hport : t.portlog = s.portlog ++ said) :
    BlindToRecords w s t l p a :=
  ⟨[], [], said, by simp [hlog], by simp [hpop], hport, by simpa using hm⟩

/-- A move that appends to no record. -/
theorem BlindToRecords.of_none_appended {w : StepWord} {s t : State} {l p : List Waveform} {a : List PortAnswer}
    (hm : Move w (s.withRecords l p a) (t.withRecords l p a)) (hlog : t.txlog = s.txlog)
    (hpop : t.popped = s.popped) (hport : t.portlog = s.portlog) : BlindToRecords w s t l p a :=
  .of_said [] (by simpa using hm) hlog hpop (by simp [hport])

/-- Every move but RESET is the same with other records: its guard and what it appends read none of them. -/
theorem Move.blindToRecords {w : StepWord} {s t : State} (hm : Move w s t) (hr : decode w ≠ .instr .reset)
    (l p : List Waveform) (a : List PortAnswer) : BlindToRecords w s t l p a := by
  cases hm with
  | accepted c hd hq => exact .of_said _ (.accepted c hd hq) rfl rfl rfl
  | full c hd hq => exact .of_said _ (.full c hd hq) rfl rfl rfl
  | malformed why hd => exact .of_said _ (.malformed why hd) rfl rfl rfl
  | start v rest hd hb hf =>
    refine ⟨[], [v], [], by simp, rfl, by simp, ?_⟩
    simp only [List.append_nil]
    exact .start v rest hd hb hf
  | poll hd h => exact .of_none_appended (.poll hd h) rfl rfl rfl
  | accept v hd hp =>
    refine ⟨[v], [], [], rfl, by simp, by simp, ?_⟩
    simp only [List.append_nil]
    exact .accept v hd hp
  | reject v hd hp => exact .of_none_appended (.reject v hd hp) rfl rfl rfl
  | done v hd hp => exact .of_none_appended (.done v hd hp) rfl rfl rfl
  | sync hd hp => exact .of_none_appended (.sync hd hp) rfl rfl rfl
  | status hd => exact .of_said _ (.status hd) rfl rfl rfl
  | reset hd => exact absurd hd hr

end Sys2Proof.Machine
end

section
/-! PROOF. The statements of 10_state.md: the state of the block, its invariants and who reads and writes it. -/

namespace Sys2Proof.Machine

open Sys2Proof

/-- Settles O37: each move hands the one waveform from one place to the next. -/
theorem handshakeInvariantKept : Obligations.HandshakeInvariantKept := by
  intro s t h hstep
  exact step_keeps (P := HandshakeInv) (fun _ _ h => ⟨h.exclusive, h.busy_iff, h.fault_quiet⟩)
    Move.keeps_handshakeInv h hstep

/-- Settles O39: kept together with the handshake invariant, which says that only one place is taken. -/
theorem transmissionRecordKept : Obligations.TransmissionRecordKept := by
  refine ⟨fun s t hh h hstep => ?_, fun s h => ?_⟩
  · obtain ⟨w, rest, hm⟩ := step_moves hstep
    exact hm.keeps_txlogInv ⟨hh.exclusive, hh.busy_iff, hh.fault_quiet⟩
      ⟨h.offered, h.rejected, h.settled, h.holding, h.finished⟩
  · obtain he | ⟨v, he⟩ := h.popped_cases <;> simp [he]

/-- Settles O31: the STATUS word field by field. -/
theorem statusReadReturnsEveryField : Obligations.StatusReadReturnsEveryField := by
  intro s
  obtain ⟨hbusy, hempty, hmal, hstart, hover⟩ := statusWord_flags s
  exact ⟨statusWord s, rfl, hbusy, hempty, hmal, hstart, hover, statusWord_reserved s, statusWord_pending s⟩

/-- Settles O40: only RESET writes the table, and it writes the one of the configuration, which is valid. -/
theorem timingTableKept : Obligations.TimingTableKept := by
  refine ⟨fun s t h hstep => ?_, fun s h d hd => h.durations_fit hd⟩
  obtain ⟨w, rest, hm⟩ := step_moves hstep
  have ht : TableInv t := hm.keeps_tableInv h
  refine ⟨ht, ?_⟩
  calc t.tt = buildTable t.cfg.params.clkHz := ht
    _ = buildTable s.cfg.params.clkHz := by rw [hm.cfg_eq]
    _ = s.tt := h.symm

/-- Settles O41: FifoPushN tests the capacity, and a report bit is set with the answer it reports. -/
theorem capacityAndReportsKept : Obligations.CapacityAndReportsKept := by
  intro s t hstep
  exact ⟨fun h => step_keeps (P := DepthInv) (fun _ _ h => ⟨h.within, h.no_overflow⟩) Move.keeps_depthInv h hstep,
    fun h => step_keeps (P := ReportInv) (fun _ _ h => ⟨h.malformed, h.overflow⟩) Move.keeps_reportInv h hstep⟩

/-- Settles O44: each move's label says whose it is, and the move what it leaves alone. -/
theorem eachFieldIsWrittenByItsAgentsOnly : Obligations.EachFieldIsWrittenByItsAgentsOnly := by
  intro w s t h hreset
  have agent : ∀ {i : Instr}, decode w = .instr i → agentOfLabel w.label = agentOfLabel (encode i).label :=
    fun hd => congrArg agentOfLabel (label_of_decode_instr hd)
  cases runWord_moves h with
  | accepted c hd | full c hd =>
    have hp : agentOfLabel w.label = .producer := (agent hd).trans (by cases c <;> rfl)
    simp [hp]
  | malformed why hd =>
    have hp : agentOfLabel w.label = .producer := congrArg agentOfLabel (label_of_decode_malformed hd)
    simp [hp]
  | start v rest hd =>
    have hp : agentOfLabel w.label = .dispatcher := agent hd
    simp [hp]
  | accept v hd | reject v hd | done v hd =>
    have hp : agentOfLabel w.label = .transmitter := agent hd
    simp [hp]
  | sync hd =>
    have hp : agentOfLabel w.label = .synchronizer := agent hd
    simp [hp]
  | poll | status => simp
  | reset hd => exact absurd (agent hd) hreset

/-- Settles O45: the guards read no sticky bit, and RESET writes all three. -/
theorem noStepDependsOnTheStickyBits : Obligations.NoStepDependsOnTheStickyBits := by
  intro i s m o x hs
  refine ⟨fun t h hr => ?_, fun hi => by subst hi; rfl, fun r h => ?_⟩
  · have hmove : Move (encode i) s t := runWord_moves ((runWord_encode i s).trans h)
    obtain ⟨setM, setO, setX, hmal, hover, hstart, hother⟩ :=
      hmove.blindToSticky (by simpa [decode_encode] using hs) (by simpa [decode_encode] using hr) m o x
    exact ⟨setM, setO, setX, hmal, hover, hstart, (runWord_encode i _).symm.trans hother.runWord_eq⟩
  · rw [exec_refused_iff] at h ⊢
    exact h

/-- Settles O46: the guards and the answers read no record, and RESET empties all three. -/
theorem noStepReadsTheRecords : Obligations.NoStepReadsTheRecords := by
  intro w s l p a
  refine ⟨fun t h hr => ?_, fun hd => ?_, fun r h => ?_⟩
  · obtain ⟨sent, taken, said, hlog, hpop, hport, hother⟩ := (runWord_moves h).blindToRecords hr l p a
    exact ⟨sent, taken, said, hlog, hpop, hport, hother.runWord_eq⟩
  · rw [runWord_of_decode hd, runWord_of_decode hd]
    rfl
  · simp only [runWord_refused_iff, exec_refused_iff] at h ⊢
    exact h

/-- Settles O53: with busy 0 the record is settled, and with the FIFO empty what was popped is all that was enqueued. -/
theorem idleAndEmptyMeansEverythingWasSent : Obligations.IdleAndEmptyMeansEverythingWasSent := by
  intro s h hbusy hempty
  obtain ⟨hbit0, hbit1, -⟩ := statusWord_flags s
  obtain ⟨hp, hi, hd, hx⟩ := h.handshake.quiet_of_idle (hbit0.symm.trans hbusy)
  have hfifo : s.fifo = [] := by simpa using hbit1.symm.trans hempty
  refine ⟨?_, hp, hi, hd⟩
  calc s.txlog = s.popped := (h.txlog.settled hp hx).symm
    _ = s.popped ++ s.fifo := by simp [hfifo]
    _ = enqueuedSinceReset s := h.conserved

/-- Settles O36: the state after RESET is what RESET makes of itself. -/
theorem resetStateMeetsTheInvariants : Obligations.ResetStateMeetsTheInvariants :=
  have afterReset (c : Config) : BlockInv (State.afterReset c) := blockInv_resetRecord (State.afterReset c)
  ⟨afterReset Config.hardware, afterReset⟩

end Sys2Proof.Machine
end

section
/-! SUPPORT. One step and a finite schedule in parts, the FIFO over one move, XMIT, and what a command and a step of the
transmitter or the synchronizer neither read nor write of each other. -/

namespace Sys2Proof.Machine

open Sys2Proof

/-! ### One step and finite schedules (R86) -/

/-- A step runs the head of the schedule, with it taken off. -/
theorem step_of_schedule {s : State} {w : StepWord} {rest : List StepWord} (h : s.schedule = w :: rest) :
    step s = runWord w { s with schedule := rest } := by
  simp only [step, fetch, h]

/-- A table word reads as an instruction exactly where its step word decodes to it (assumption 14). -/
theorem decodeTableWord_eq_some_iff {nbits w : Nat} {i : Instr} :
    decodeTableWord nbits w = some i ↔ decode (tableStepWord nbits w) = .instr i := by
  unfold decodeTableWord
  cases decode (tableStepWord nbits w) <;> simp

/-- A schedule whose first word has a move goes on with the others. -/
theorem runWords_cons_of_next {w : StepWord} {ws : List StepWord} {s u : State} (h : runWord w s = .next u) :
    runWords (w :: ws) s = runWords ws u := by
  simp only [runWords, h]

/-- A schedule that runs to its end took its first word to some state, and the others from there. -/
theorem runWords_cons_next {w : StepWord} {ws : List StepWord} {s t : State} (h : runWords (w :: ws) s = .next t) :
    ∃ u, runWord w s = .next u ∧ runWords ws u = .next t := by
  unfold runWords at h
  cases hw : runWord w s with
  | next u => exact ⟨u, rfl, by simpa only [hw] using h⟩
  | fault r => simp [hw] at h
  | refused r => simp [hw] at h

/-- A schedule whose first part runs to its end goes on with the second part. -/
theorem runWords_append_of_next {ws vs : List StepWord} {s t : State} (h : runWords ws s = .next t) :
    runWords (ws ++ vs) s = runWords vs t := by
  induction ws generalizing s with
  | nil => cases h; rfl
  | cons w ws ih =>
    obtain ⟨u, hw, hws⟩ := runWords_cons_next h
    calc runWords (w :: (ws ++ vs)) s = runWords (ws ++ vs) u := runWords_cons_of_next hw
      _ = runWords vs t := ih hws

/-! ### FIFO integrity (R185 item 1) -/

/-- An answer keeps FIFO integrity when `popped` and the FIFO grow by exactly the copies it stands for. -/
theorem FifoConserved.of_answer {s t : State} (h : FifoConserved s) (a : PortAnswer) (hc : t.cfg = s.cfg)
    (ht : t.tt = s.tt) (hp : t.portlog = s.portlog ++ [a])
    (hq : t.popped ++ t.fifo = s.popped ++ s.fifo ++ copiesOf s.cfg.params s.tt a) : FifoConserved t := by
  calc t.popped ++ t.fifo = s.popped ++ s.fifo ++ copiesOf s.cfg.params s.tt a := hq
    _ = enqueuedSinceReset s ++ copiesOf s.cfg.params s.tt a := congrArg (· ++ _) h
    _ = enqueuedSinceReset t := by simp [enqueuedSinceReset, hc, ht, hp]

/-- A move keeps FIFO integrity: only the answer OK stands for copies, and a start moves the head of the FIFO to the
end of `popped`. -/
theorem Move.keeps_fifoConserved {w : StepWord} {s t : State} (hm : Move w s t) (h : FifoConserved s) :
    FifoConserved t := by
  cases hm with
  | accepted c hd hq => exact h.of_answer (.ack (some c) .ok) rfl rfl rfl (by simp [copiesOf])
  | full c hd hq => exact h.of_answer (.ack (some c) .full) rfl rfl rfl (by simp [copiesOf])
  | malformed why hd => exact h.of_answer (.ack none .malformed) rfl rfl rfl (by simp [copiesOf])
  | status hd => exact h.of_answer (.status (statusWord s)) rfl rfl rfl (by simp [copiesOf])
  | start v rest hd hb hf =>
    have hsame : (s.popped ++ [v]) ++ rest = s.popped ++ s.fifo := by simp [hf]
    exact hsame.trans h
  | poll | accept | reject | done | sync => exact h
  | reset hd => exact (blockInv_resetRecord s).conserved

/-! ### XMIT (R57, R85) -/

/-- XMIT from Idle with work transmits the head of the FIFO. -/
theorem runWords_xmit_of_idle {s : State} {v : Waveform} {rest : List Waveform} (hb : s.busy = false)
    (hf : s.fifo = v :: rest) :
    runWords (expandLine .xmit) s =
      .next { s with
        fifo := rest, txlog := s.txlog ++ [v], popped := s.popped ++ [v], startPending := none, inflight := none,
        donePending := false } := by
  calc runWords [encode .tick, encode .txAccept, encode .txDone, encode .sync] s
      = runWords [encode .txAccept, encode .txDone, encode .sync] _ :=
        runWords_cons_of_next (Move.start v rest (decode_encode .tick) hb hf).runWord_eq
    _ = runWords [encode .txDone, encode .sync] _ :=
        runWords_cons_of_next (Move.accept v (decode_encode .txAccept) (by rfl)).runWord_eq
    _ = runWords [encode .sync] _ :=
        runWords_cons_of_next (Move.done v (decode_encode .txDone) (by rfl)).runWord_eq
    _ = runWords [] _ := runWords_cons_of_next (Move.sync (decode_encode .sync) (by rfl)).runWord_eq
    _ = _ := by simp only [runWords, hb]

/-- As many XMITs as the FIFO holds, from Idle with nothing offered, in flight or finished, transmit all of it. -/
theorem runWords_xmits_of_idle {q : List Waveform} {s : State} (hf : s.fifo = q) (hb : s.busy = false)
    (hp : s.startPending = none) (hi : s.inflight = none) (hd : s.donePending = false) :
    runWords (List.replicate q.length (expandLine .xmit)).flatten s =
      .next { s with fifo := [], txlog := s.txlog ++ q, popped := s.popped ++ q } := by
  induction q generalizing s with
  | nil =>
    change Host.Outcome.next s = _
    simp only [List.append_nil]
    rw [← hf]
  | cons v rest ih =>
    calc runWords (expandLine .xmit ++ (List.replicate rest.length (expandLine .xmit)).flatten) s
        = runWords (List.replicate rest.length (expandLine .xmit)).flatten _ :=
          runWords_append_of_next (runWords_xmit_of_idle hb hf)
      _ = _ := ih rfl hb rfl rfl rfl
      _ = _ := by simp [hp, hi, hd]

/-! ### A command beside the transmitter and the synchronizer (R206) -/

/-- The state with every field that the transmitter or the synchronizer writes (R212) taken from `u`. -/
def State.withTransmitterOf (s u : State) : State :=
  { s with
    busy := u.busy, startPending := u.startPending, inflight := u.inflight, donePending := u.donePending
    faultTxStart := u.faultTxStart, txlog := u.txlog }

/-- A command that fits enqueues its copies and answers OK (R171). -/
theorem enqueueCommand_of_within {c : Command} {s : State}
    (h : withinDepth s.cfg.params.queueDepth (s.fifo.length + Command.copies c) = true) :
    enqueueCommand c s = { s with
      fifo := s.fifo ++ List.replicate (Command.copies c) (Command.waveform s.cfg.params s.tt c)
      portlog := s.portlog ++ [.ack (some c) .ok] } := by
  simp only [enqueueCommand, fifoPushN_of_within h, answer]

/-- A command that does not fit sets OVERFLOW and answers FULL (R171). -/
theorem enqueueCommand_of_beyond {c : Command} {s : State}
    (h : withinDepth s.cfg.params.queueDepth (s.fifo.length + Command.copies c) = false) :
    enqueueCommand c s = { s with faultOverflow := true, portlog := s.portlog ++ [.ack (some c) .full] } := by
  simp only [enqueueCommand, fifoPushN_of_beyond h, answer]

/-- A command neither reads nor writes a field of the transmitter or the synchronizer. -/
theorem enqueueCommand_withTransmitterOf (c : Command) (s u : State) :
    enqueueCommand c (s.withTransmitterOf u) = (enqueueCommand c s).withTransmitterOf u := by
  cases hq : withinDepth s.cfg.params.queueDepth (s.fifo.length + Command.copies c) with
  | true =>
    rw [enqueueCommand_of_within hq, enqueueCommand_of_within (s := s.withTransmitterOf u) hq]
    rfl
  | false =>
    rw [enqueueCommand_of_beyond hq, enqueueCommand_of_beyond (s := s.withTransmitterOf u) hq]
    rfl

/-- An enabled step of the transmitter or the synchronizer reads and writes the fields of those two only: whatever the
other fields hold, it makes the same move. -/
theorem exec_withTransmitterOf {i : Instr} {s : State}
    (hi : i = .txAccept ∨ i = .txReject ∨ i = .txDone ∨ i = .sync) (hen : enabled i s = true) :
    ∃ u, ∀ t : State, exec i (t.withTransmitterOf s) = .next (t.withTransmitterOf u) := by
  suffices hmove : ∃ u, ∀ t : State, Move (encode i) (t.withTransmitterOf s) (t.withTransmitterOf u) by
    obtain ⟨u, hm⟩ := hmove
    exact ⟨u, fun t => (runWord_encode i _).symm.trans (hm t).runWord_eq⟩
  obtain rfl | rfl | rfl | rfl := hi
  · obtain ⟨v, hp⟩ := Option.isSome_iff_exists.mp hen
    exact ⟨{ s with startPending := none, inflight := some v, txlog := s.txlog ++ [v] },
      fun _ => .accept v (decode_encode .txAccept) hp⟩
  · obtain ⟨v, hp⟩ := Option.isSome_iff_exists.mp hen
    exact ⟨{ s with startPending := none, faultTxStart := true }, fun _ => .reject v (decode_encode .txReject) hp⟩
  · obtain ⟨v, hp⟩ := Option.isSome_iff_exists.mp hen
    exact ⟨{ s with inflight := none, donePending := true }, fun _ => .done v (decode_encode .txDone) hp⟩
  · exact ⟨{ s with donePending := false, busy := false }, fun _ => .sync (decode_encode .sync) hen⟩

end Sys2Proof.Machine
end

section
/-! PROOF. The statements of 20_memory.md: the order of steps, the FIFO, XMIT and the steps that commute. -/

namespace Sys2Proof.Machine

open Sys2Proof

/-- Settles O38: only a command answered OK enqueues, exactly its copies, and only TICK pops, the head. -/
theorem fifoIntegrityKept : Obligations.FifoIntegrityKept := by
  intro s t h hstep
  exact step_keeps (P := FifoConserved) (fun _ _ h => h) Move.keeps_fifoConserved h hstep

/-- Settles O54: XMIT transmits the head and leaves the block Idle for the next one, by induction on the FIFO. -/
theorem xmitsDrainTheQueueInOrder : Obligations.XmitsDrainTheQueueInOrder :=
  ⟨fun _ _ _ hb hf => runWords_xmit_of_idle hb hf, fun _ hb hp hi hd => runWords_xmits_of_idle rfl hb hp hi hd⟩

/-- Settles O55: a command and such a step touch no field in common. -/
theorem commandsCommuteWithTheTransmitter : Obligations.CommandsCommuteWithTheTransmitter := by
  intro c i s hi hen
  obtain ⟨u, hmove⟩ := exec_withTransmitterOf hi hen
  have hkept : (enqueueCommand c s).withTransmitterOf s = enqueueCommand c s :=
    (enqueueCommand_withTransmitterOf c s s).symm
  refine ⟨enqueueCommand c s, s.withTransmitterOf u, (enqueueCommand c s).withTransmitterOf u,
    exec_command c s, ?_, hmove s, ?_⟩
  · rw [← hmove (enqueueCommand c s), hkept]
  · rw [exec_command, enqueueCommand_withTransmitterOf]

/-- Settles O34: `step` fetches the head of the schedule, where `withFetchWord` places its word. -/
theorem stepRunsTheDecodedInstruction : Obligations.StepRunsTheDecodedInstruction := by
  refine ⟨fun s w rest i hs hd => ?_, fun s nbits w i hd => ?_⟩
  · rw [step_of_schedule hs, runWord_of_decode hd]
  · have hplaced : (s.withFetchWord nbits w).schedule = tableStepWord nbits w :: s.schedule := rfl
    rw [step_of_schedule hplaced, runWord_of_decode (decodeTableWord_eq_some_iff.mp hd)]
    rfl

end Sys2Proof.Machine
end

section
/-! SUPPORT. The decoder inverted, command words and steps: with `decode_encode`, what the decoder reads is exactly what
the encoder writes (R72, R73, R79, R82). Then what a step stops with, and the assembler's two answers (R84). -/

namespace Sys2Proof.Machine

open Sys2Proof

/-! ### Command words (R72, R73, R76, R77) -/

/-- All a command word that decodes can be (R82): its OP, its reserved zeros, and the command of its fields. -/
theorem decodeCommand_instr {p : CmdWord} {i : Instr} (h : decodeCommand p = .instr i) :
    (p.extractLsb' 60 4 = 1#4 ∧ p.extractLsb' 9 51 = 0#51 ∧ i = .socket (p.extractLsb' 0 8) (p.getLsbD 8))
    ∨ (p.extractLsb' 60 4 = 2#4 ∧ p.extractLsb' 50 10 = 0#10
      ∧ i = .collar (p.extractLsb' 0 16) (p.extractLsb' 16 8) (actionOfField (p.extractLsb' 24 2))
          (p.extractLsb' 26 8) (p.extractLsb' 34 16)) := by
  unfold decodeCommand at h
  dsimp only at h
  split at h
  · next hop =>
    split at h
    · next hres => cases h; exact .inl ⟨hop, hres, rfl⟩
    · cases h
  · split at h
    · next hop =>
      split at h
      · next hres => cases h; exact .inr ⟨hop, hres, rfl⟩
      · cases h
    · cases h

/-- A word with the OP of SOCKET and its reserved bits at 0 is the SOCKET word of its own fields (R72). -/
theorem socketWord_of_fields {p : CmdWord} (hop : p.extractLsb' 60 4 = 1#4) (hres : p.extractLsb' 9 51 = 0#51) :
    socketWord (p.extractLsb' 0 8) (p.getLsbD 8) = p := by
  have hop := congrArg BitVec.toNat hop
  have hres := congrArg BitVec.toNat hres
  have hon : (p.getLsbD 8).toNat = p.toNat / 2 ^ 8 % 2 := Nat.toNat_testBit _ _
  simp only [toNat_slice, BitVec.toNat_ofNat] at hop hres
  apply BitVec.eq_of_toNat_eq
  rw [socketWord_toNat, hon, toNat_slice]
  omega

/-- A word with the OP of COLLAR and its reserved bits at 0 is the COLLAR word of its own fields (R73). -/
theorem collarWord_of_fields {p : CmdWord} (hop : p.extractLsb' 60 4 = 2#4) (hres : p.extractLsb' 50 10 = 0#10) :
    collarWord (p.extractLsb' 0 16) (p.extractLsb' 16 8) (actionOfField (p.extractLsb' 24 2)) (p.extractLsb' 26 8)
      (p.extractLsb' 34 16) = p := by
  have hop := congrArg BitVec.toNat hop
  have hres := congrArg BitVec.toNat hres
  simp only [toNat_slice, BitVec.toNat_ofNat] at hop hres
  apply BitVec.eq_of_toNat_eq
  simp only [collarWord_toNat, fieldOfAction_actionOfField, toNat_slice]
  omega

/-- A command word decodes to exactly the instruction that it is the encoding of. -/
theorem decodeCommand_eq_instr_iff {p : CmdWord} {i : Instr} :
    decodeCommand p = .instr i ↔ encode i = ⟨0b000#3, p⟩ := by
  constructor
  · intro h
    obtain ⟨hop, hres, rfl⟩ | ⟨hop, hres, rfl⟩ := decodeCommand_instr h
    · exact congrArg (StepWord.mk 0b000#3) (socketWord_of_fields hop hres)
    · exact congrArg (StepWord.mk 0b000#3) (collarWord_of_fields hop hres)
  · intro h
    have hd : decode ⟨0b000#3, p⟩ = .instr i := h ▸ decode_encode i
    exact hd

/-- A word is decoded to SOCKET by its OP and its reserved bits alone (R72). -/
theorem decodeCommand_socket_iff {p : CmdWord} :
    (∃ id on, decodeCommand p = .instr (.socket id on)) ↔ p.extractLsb' 60 4 = 1#4 ∧ p.extractLsb' 9 51 = 0#51 := by
  constructor
  · rintro ⟨id, on, h⟩
    obtain ⟨hop, hres, -⟩ | ⟨-, -, hi⟩ := decodeCommand_instr h
    · exact ⟨hop, hres⟩
    · cases hi
  · rintro ⟨hop, hres⟩
    exact ⟨_, _, decodeCommand_eq_instr_iff.mpr (congrArg _ (socketWord_of_fields hop hres))⟩

/-- A word is decoded to COLLAR by its OP and its reserved bits alone (R73). -/
theorem decodeCommand_collar_iff {p : CmdWord} :
    (∃ id ch act intensity dur, decodeCommand p = .instr (.collar id ch act intensity dur)) ↔
      p.extractLsb' 60 4 = 2#4 ∧ p.extractLsb' 50 10 = 0#10 := by
  constructor
  · rintro ⟨id, ch, act, intensity, dur, h⟩
    obtain ⟨-, -, hi⟩ | ⟨hop, hres, -⟩ := decodeCommand_instr h
    · cases hi
    · exact ⟨hop, hres⟩
  · rintro ⟨hop, hres⟩
    exact ⟨_, _, _, _, _, decodeCommand_eq_instr_iff.mpr (congrArg _ (collarWord_of_fields hop hres))⟩

/-- A mask that keeps the bits from k up, as a number: the k low bits are put to 0. -/
theorem toNat_and_highMask (p : CmdWord) (k : Nat) :
    (p &&& BitVec.allOnes 64 <<< k).toNat = p.toNat / 2 ^ k * 2 ^ k := by
  have hlt : p.toNat / 2 ^ k * 2 ^ k < 2 ^ 64 := (Nat.div_mul_le_self _ _).trans_lt p.isLt
  rw [← BitVec.shiftLeft_ushiftRight, BitVec.toNat_shiftLeft, BitVec.toNat_ushiftRight, Nat.shiftLeft_eq,
    Nat.shiftRight_eq_div_pow, Nat.mod_eq_of_lt hlt]

/-- The match and the mask of the SOCKET row say its OP and its reserved bits (R72). -/
theorem matches_socketRow_iff (p : CmdWord) :
    p &&& 0xFFFFFFFFFFFFFE00#64 = 0x1000000000000000#64 ↔ p.extractLsb' 60 4 = 1#4 ∧ p.extractLsb' 9 51 = 0#51 := by
  have hmask : (p &&& 0xFFFFFFFFFFFFFE00#64).toNat = p.toNat / 2 ^ 9 * 2 ^ 9 := toNat_and_highMask p 9
  simp only [← BitVec.toNat_inj, hmask, toNat_slice, BitVec.toNat_ofNat]
  omega

/-- The match and the mask of the COLLAR row say its OP and its reserved bits (R73). -/
theorem matches_collarRow_iff (p : CmdWord) :
    p &&& 0xFFFC000000000000#64 = 0x2000000000000000#64 ↔ p.extractLsb' 60 4 = 2#4 ∧ p.extractLsb' 50 10 = 0#10 := by
  have hmask : (p &&& 0xFFFC000000000000#64).toNat = p.toNat / 2 ^ 50 * 2 ^ 50 := toNat_and_highMask p 50
  simp only [← BitVec.toNat_inj, hmask, toNat_slice, BitVec.toNat_ofNat]
  omega

/-- A well-formed command word decodes (R76, R77). -/
theorem decodeCommand_of_wellFormed {p : CmdWord} (h : CmdWord.wellFormed p = true) :
    ∃ i, decodeCommand p = .instr i := by
  simp only [CmdWord.wellFormed, Bool.or_eq_true, Bool.and_eq_true, beq_iff_eq] at h
  obtain hs | hc := h
  · obtain ⟨_, _, hd⟩ := decodeCommand_socket_iff.mpr hs
    exact ⟨_, hd⟩
  · obtain ⟨_, _, _, _, _, hd⟩ := decodeCommand_collar_iff.mpr hc
    exact ⟨_, hd⟩

/-! ### Encoded steps (R79) -/

/-- A CMD step decodes its payload. -/
theorem decode_of_label_cmd {w : StepWord} (hl : w.label = 0b000#3) : decode w = decodeCommand w.payload :=
  if_pos hl

/-- The encoder writes 0 on the payload lines of a label without payload (assumption 4). -/
theorem encode_payload_of_label_ne {i : Instr} (hl : (encode i).label ≠ 0b000#3) : (encode i).payload = 0#64 := by
  cases i with
  | socket | collar => exact absurd rfl hl
  | tick | txAccept | txReject | txDone | sync | statusRd | reset => rfl

/-- A step that decodes is the encoding of what it decodes to, up to payload lines that are not read. -/
theorem encode_of_decode {w : StepWord} {i : Instr} (hd : decode w = .instr i) : encode i = w.canonical := by
  have hlabel : w.label = (encode i).label := label_of_decode_instr hd
  by_cases hl : w.label = 0b000#3
  · have hword : encode i = ⟨0b000#3, w.payload⟩ :=
      decodeCommand_eq_instr_iff.mp ((decode_of_label_cmd hl).symm.trans hd)
    rw [hword, StepWord.canonical, if_pos hl, ← hl]
  · have hpayload : (encode i).payload = 0#64 := encode_payload_of_label_ne (hlabel ▸ hl)
    rw [StepWord.canonical, if_neg hl, hlabel, ← hpayload]

/-- Every encoding is a well-formed step: the family of Laws/PerInstr.lean as one fact. -/
theorem encode_wellFormed (i : Instr) : (encode i).wellFormed = true := by
  cases i with
  | socket id on => exact Laws.EncodesWellFormed.socket id on
  | collar id ch act x dur => exact Laws.EncodesWellFormed.collar id ch act x dur
  | tick => exact Laws.EncodesWellFormed.tick
  | txAccept => exact Laws.EncodesWellFormed.txAccept
  | txReject => exact Laws.EncodesWellFormed.txReject
  | txDone => exact Laws.EncodesWellFormed.txDone
  | sync => exact Laws.EncodesWellFormed.sync
  | statusRd => exact Laws.EncodesWellFormed.statusRd
  | reset => exact Laws.EncodesWellFormed.reset

/-- A step that is well formed up to payload lines that are not read decodes: its label is another than CMD, or its
payload is a well-formed command word. -/
theorem decode_of_canonical_wellFormed {w : StepWord} (h : w.canonical.wellFormed = true) :
    ∃ i, decode w = .instr i := by
  by_cases hl : w.label = 0b000#3
  · rw [StepWord.canonical, if_pos hl, StepWord.wellFormed, if_pos hl] at h
    rw [decode_of_label_cmd hl]
    exact decodeCommand_of_wellFormed h
  · cases hd : decode w with
    | instr i => exact ⟨i, rfl⟩
    | malformed why => exact absurd (label_of_decode_malformed hd) hl

/-! ### What a step stops with (R200) -/

/-- No instruction ends in a fault: it moves or it is refused. -/
theorem exec_ne_fault (i : Instr) (s : State) (r : Fault) : exec i s ≠ .fault r := by
  cases i with
  | socket | collar | statusRd | reset => exact nofun
  | tick => obtain ⟨_, _, -, -, he⟩ | ⟨-, he⟩ := execTick_cases s <;> simp [exec, he]
  | txAccept => cases hp : s.startPending <;> simp [exec, execTxAccept, hp]
  | txReject => cases hp : s.startPending <;> simp [exec, execTxReject, hp]
  | txDone => cases hp : s.inflight <;> simp [exec, execTxDone, hp]
  | sync => cases hp : s.donePending <;> simp [exec, execSync, hp]

/-- No encoded step ends in a fault, a malformed one neither (R155). -/
theorem runWord_ne_fault (w : StepWord) (s : State) (r : Fault) : runWord w s ≠ .fault r := by
  cases hd : decode w with
  | instr i => rw [runWord_of_decode hd]; exact exec_ne_fault i s r
  | malformed why => simp [runWord, hd, execMalformed]

/-- The machine stops with a fault exactly when no step is presented (R86, assumption 3). -/
theorem step_fault_iff {s : State} {r : Fault} : step s = .fault r ↔ s.schedule = [] := by
  cases hs : s.schedule with
  | nil => cases r; simp [step, fetch, hs]
  | cons w rest => simp [step_of_schedule hs, runWord_ne_fault]

/-! ### The assembler (R84) -/

/-- A line whose operands are in range assembles to its steps. -/
theorem assemble_of_wellFormed {l : AsmLine} (h : l.wellFormed = true) : assemble l = .steps (expandLine l) :=
  if_pos h

/-- A line with an operand out of range is refused. -/
theorem assemble_of_not_wellFormed {l : AsmLine} (h : ¬ l.wellFormed = true) :
    assemble l = .error .operandOutOfRange :=
  if_neg h

/-- Two lines with the same ranges and the same steps assemble alike. -/
theorem assemble_congr {l m : AsmLine} (hw : l.wellFormed = m.wellFormed) (he : expandLine l = expandLine m) :
    assemble l = assemble m := by
  rw [assemble, assemble, hw, he]

/-- A number below 2^width is the value of its field: nothing is truncated. -/
theorem toNat_field_of_lt {width n : Nat} (h : n < 2 ^ width) : (BitVec.ofNat width n).toNat = n := by
  rw [BitVec.toNat_ofNat, Nat.mod_eq_of_lt h]

/-- The range of the SOCKET line. -/
theorem socketLine_wellFormed_iff {id : Nat} {on : Bool} : (AsmLine.socket id on).wellFormed = true ↔ id ≤ 255 :=
  decide_eq_true_iff

/-- The ranges of the COLLAR line. -/
theorem collarLine_wellFormed_iff {id ch : Nat} {act : Action} {i dur : Nat} :
    (AsmLine.collar id ch act i dur).wellFormed = true ↔ id ≤ 65535 ∧ ch ≤ 255 ∧ i ≤ 255 ∧ dur ≤ 65535 := by
  simp [AsmLine.wellFormed, and_assoc]

/-- The range of the `.cmd` line. -/
theorem cmdLine_wellFormed_iff {word : Nat} : (AsmLine.cmd word).wellFormed = true ↔ word < 2 ^ 64 :=
  decide_eq_true_iff

/-- BEEP and LIGHT have no DUR operand; the COLLAR line they stand for has DUR 0, which is in range. -/
theorem collarLine_wellFormed_dur_zero (id ch : Nat) (act : Action) (i : Nat) :
    (AsmLine.collar id ch act i 0).wellFormed = (decide (id ≤ 65535) && decide (ch ≤ 255) && decide (i ≤ 255)) := by
  simp [AsmLine.wellFormed]

end Sys2Proof.Machine
end

section
/-! PROOF. The statements of 30_encoding.md: the decoder and the encoder, command words, and the assembler. -/

namespace Sys2Proof.Machine

open Sys2Proof

/-- Settles O2: each field of an encoded word is read back where the encoder put it. -/
theorem decodeInvertsEncode : Obligations.DecodeInvertsEncode :=
  decode_encode

/-- Settles O3: a word with its reserved bits at 0 is made of its fields, and the label is the instruction's own. -/
theorem encodeInvertsDecode : Obligations.EncodeInvertsDecode :=
  fun _ _ hd => encode_of_decode hd

/-- Settles O4: decoding and the row both say the OP and the reserved bits of the word. -/
theorem commandWordsMatchTheOpcodeTable : Obligations.CommandWordsMatchTheOpcodeTable :=
  fun w => ⟨decodeCommand_socket_iff.trans (matches_socketRow_iff w).symm,
    decodeCommand_collar_iff.trans (matches_collarRow_iff w).symm⟩

/-- Settles O5: what decodes is an encoding, which is well formed. -/
theorem decoderAcceptsExactlyTheWellFormedSteps : Obligations.DecoderAcceptsExactlyTheWellFormedSteps := by
  refine fun w => ⟨?_, decode_of_canonical_wellFormed⟩
  rintro ⟨i, hd⟩
  rw [← encode_of_decode hd]
  exact encode_wellFormed i

/-- Settles O25: a command word makes one of three moves, answered OK, FULL or MALFORMED. -/
theorem everyCommandWordIsAnsweredOnce : Obligations.EveryCommandWordIsAnsweredOnce := by
  intro p s
  obtain ⟨c, hd⟩ | ⟨why, hd⟩ := decodeCommand_cases p
  · cases hq : withinDepth s.cfg.params.queueDepth (s.fifo.length + Command.copies c) with
    | true => exact ⟨_, some c, .ok, (Move.accepted (w := ⟨0b000#3, p⟩) c hd hq).runWord_eq, by simp⟩
    | false =>
      have hfinite : s.cfg.params.queueDepth ≠ .unbounded := fun hu => by simp [hu, withinDepth_unbounded] at hq
      exact ⟨_, some c, .full, (Move.full (w := ⟨0b000#3, p⟩) c hd hq).runWord_eq, by simp [hfinite]⟩
  · exact ⟨_, none, .malformed, (Move.malformed (w := ⟨0b000#3, p⟩) why hd).runWord_eq, by simp⟩

/-- Settles O57: an operand in range fits its field, so no bit of it is lost; a pseudo-instruction has the ranges and
the steps of its line. -/
theorem assemblerKeepsOperandsOrRefuses : Obligations.AssemblerKeepsOperandsOrRefuses := by
  refine ⟨fun id on => ⟨fun h => ?_, fun h => ?_⟩, fun id ch act i dur => ⟨fun h => ?_, fun h => ?_⟩,
    fun word => ⟨fun h => ?_, fun h => ?_⟩, by decide, fun id => ⟨rfl, rfl⟩, fun id ch i dur => ⟨rfl, rfl,
      assemble_congr (collarLine_wellFormed_dur_zero id ch .beep i).symm rfl,
      assemble_congr (collarLine_wellFormed_dur_zero id ch .light i).symm rfl⟩, by decide⟩
  · exact ⟨_, _, assemble_of_wellFormed (socketLine_wellFormed_iff.mpr h), decode_encode _,
      toNat_field_of_lt (by omega)⟩
  · exact assemble_of_not_wellFormed (by rw [socketLine_wellFormed_iff]; omega)
  · have hw := collarLine_wellFormed_iff (act := act).mpr h
    obtain ⟨hid, hch, hi, hdur⟩ := h
    exact ⟨_, _, _, _, _, assemble_of_wellFormed hw, decode_encode _, toNat_field_of_lt (by omega),
      toNat_field_of_lt (by omega), toNat_field_of_lt (by omega), toNat_field_of_lt (by omega)⟩
  · exact assemble_of_not_wellFormed (by rw [collarLine_wellFormed_iff]; omega)
  · exact ⟨_, assemble_of_wellFormed (cmdLine_wellFormed_iff.mpr h), rfl, toNat_field_of_lt h⟩
  · exact assemble_of_not_wellFormed (by rw [cmdLine_wellFormed_iff]; omega)

/-- Settles O1: each word is evaluated, and no label without payload reads the payload. -/
theorem decodeReadsTheSpecWords : Obligations.DecodeReadsTheSpecWords := by
  refine ⟨?_, ?_, ?_, ?_, ?_, ?_, ?_, ?_, ?_, ?_, ?_, ?_, ?_, ?_, fun p => ⟨rfl, rfl, rfl, rfl, rfl, rfl, rfl⟩⟩ <;>
    decide

/-- Settles O35: the malformed word is the move `malformed`, and only the empty schedule is a fault. -/
theorem malformedWordIsReportedAndHarmless : Obligations.MalformedWordIsReportedAndHarmless := by
  refine ⟨fun s w rest why hs hd => ?_, fun _ _ => step_fault_iff⟩
  rw [step_of_schedule hs]
  exact (Move.malformed why hd).runWord_eq

end Sys2Proof.Machine
end

section
/-! SUPPORT. The packets read back field by field (R107, R111), which operands give one packet (R108, R112), and which
packets give one waveform: in a valid configuration the three pulse pairs of a protocol differ (R138). -/

namespace Sys2Proof.Machine

open Sys2Proof

/-! ### The field codes and the clamps (R101 to R104) -/

/-- The action code (R103) is the ACT field (R74) plus one. -/
theorem actionCode_eq (act : Action) : actionCode act = (fieldOfAction act).zeroExtend 4 + 1#4 := by
  cases act <;> rfl

/-- The four action codes (R103). -/
theorem actionCode_mem (act : Action) : actionCode act ∈ [0b0001#4, 0b0010#4, 0b0011#4, 0b0100#4] := by
  cases act <;> decide

/-- The greatest action code is that of Light (R103). -/
theorem actionCode_le (act : Action) : (actionCode act).toNat ≤ 4 := by
  cases act <;> decide

/-- The action is read back from its code (R74, R103). -/
theorem actionOfField_actionCode (act : Action) : actionOfField ((actionCode act - 1#4).setWidth 2) = act := by
  cases act <;> rfl

/-- No two actions have one code (R103). -/
theorem actionCode_injective : Function.Injective actionCode := by
  intro a b h
  rw [← actionOfField_actionCode a, h, actionOfField_actionCode]

/-- Two clamped channels have one code exactly when they are the same (R102). -/
theorem channelCode_clampChannel_inj {ch ch' : BitVec 8} :
    channelCode (clampChannel ch) = channelCode (clampChannel ch') ↔ min ch.toNat 2 = min ch'.toNat 2 := by
  rw [← BitVec.toNat_inj, channelCode_toNat, channelCode_toNat]

/-- Two intensities clamp to one field exactly when their minima with 99 agree (R104). -/
theorem clampIntensity_inj {x x' : BitVec 8} :
    clampIntensity x = clampIntensity x' ↔ min x.toNat 99 = min x'.toNat 99 := by
  rw [← BitVec.toNat_inj, clampIntensity_toNat, clampIntensity_toNat]

/-! ### The Socket packet (R107, R108) -/

/-- Both fields of a Socket packet (R107). -/
theorem packSocket_fields (p : Params) (id : BitVec 8) (on : Bool) :
    (packSocket p id on).extractLsb' 4 20 = socketCode p on
    ∧ (packSocket p id on).extractLsb' 0 4 = id.extractLsb' 0 4 :=
  ⟨BitVec.extractLsb'_append_eq_left, BitVec.extractLsb'_append_eq_right⟩

/-- Two Socket packets are the same exactly when their codes and the low nibbles of their ids are (R108). -/
theorem packSocket_inj {p : Params} {id id' : BitVec 8} {on on' : Bool} :
    packSocket p id on = packSocket p id' on' ↔
      socketCode p on = socketCode p on' ∧ id.toNat % 16 = id'.toNat % 16 := by
  simp only [← BitVec.toNat_inj, packSocket_toNat]
  omega

/-! ### The Collar packet (R110 to R113) -/

/-- The four fields of a Collar packet above its checksum (R111). -/
theorem packCollar_fields (id : BitVec 16) (ch : BitVec 8) (act : Action) (x : BitVec 8) :
    (packCollar id ch act x).extractLsb' 24 16 = id
    ∧ (packCollar id ch act x).extractLsb' 20 4 = channelCode (clampChannel ch)
    ∧ (packCollar id ch act x).extractLsb' 16 4 = actionCode act
    ∧ (packCollar id ch act x).extractLsb' 8 8 = clampIntensity x := by
  have hid := id.isLt
  have hch := (channelCode (clampChannel ch)).isLt
  have hact := (actionCode act).isLt
  have hx := (clampIntensity x).isLt
  have hsum := (checksum (id.extractLsb' 8 8) (id.extractLsb' 0 8)
    (channelCode (clampChannel ch) ++ actionCode act) (clampIntensity x)).isLt
  refine ⟨?_, ?_, ?_, ?_⟩ <;> apply BitVec.eq_of_toNat_eq <;> rw [toNat_slice, packCollar_toNat] <;> omega

/-- The bytes of a Collar packet that the checksum adds up (R109, R112). -/
theorem packCollar_bytes (id : BitVec 16) (ch : BitVec 8) (act : Action) (x : BitVec 8) :
    (packCollar id ch act x).extractLsb' 32 8 = id.extractLsb' 8 8
    ∧ (packCollar id ch act x).extractLsb' 24 8 = id.extractLsb' 0 8
    ∧ (packCollar id ch act x).extractLsb' 16 8 = channelCode (clampChannel ch) ++ actionCode act := by
  obtain ⟨hid, hch, hact, -⟩ := packCollar_fields id ch act x
  have hid := congrArg BitVec.toNat hid
  rw [toNat_slice] at hid
  rw [← hch, ← hact]
  refine ⟨?_, ?_, ?_⟩ <;> apply BitVec.eq_of_toNat_eq <;> simp only [toNat_append_add, toNat_slice] <;> omega

/-- The low byte of a Collar packet is the checksum of its other four bytes (R112). -/
theorem packCollar_checksum (id : BitVec 16) (ch : BitVec 8) (act : Action) (x : BitVec 8) :
    (packCollar id ch act x).extractLsb' 0 8 =
      checksum ((packCollar id ch act x).extractLsb' 32 8) ((packCollar id ch act x).extractLsb' 24 8)
        ((packCollar id ch act x).extractLsb' 16 8) ((packCollar id ch act x).extractLsb' 8 8) := by
  obtain ⟨hhigh, hlow, hcode⟩ := packCollar_bytes id ch act x
  obtain ⟨-, -, -, hx⟩ := packCollar_fields id ch act x
  rw [hhigh, hlow, hcode, hx]
  exact BitVec.extractLsb'_append_eq_right

/-- Two Collar packets are the same exactly when their ids, their actions and their clamped fields are (R112). -/
theorem packCollar_inj {id id' : BitVec 16} {ch ch' : BitVec 8} {act act' : Action} {x x' : BitVec 8} :
    packCollar id ch act x = packCollar id' ch' act' x' ↔
      id = id' ∧ min ch.toNat 2 = min ch'.toNat 2 ∧ act = act' ∧ min x.toNat 99 = min x'.toNat 99 := by
  rw [← channelCode_clampChannel_inj, ← clampIntensity_inj]
  constructor
  · intro h
    obtain ⟨hid, hch, hact, hx⟩ := packCollar_fields id ch act x
    obtain ⟨hid', hch', hact', hx'⟩ := packCollar_fields id' ch' act' x'
    rw [h] at hid hch hact hx
    exact ⟨hid.symm.trans hid', hch.symm.trans hch', actionCode_injective (hact.symm.trans hact'),
      hx.symm.trans hx'⟩
  · rintro ⟨rfl, hch, rfl, hx⟩
    simp only [packCollar, hch, hx]

/-! ### Waveforms (R135 to R138) -/

/-- A valid configuration has a clock of at least 3334 Hz: the 300 µs of the Collar table last at least a tick (R133). -/
theorem Config.clkHz_ge (c : Config) : 3334 ≤ c.params.clkHz := by
  have hmem : usToTicks c.params.clkHz 300 ∈ (buildTable c.params.clkHz).durations := by
    simp [TimingTable.durations, ProtocolTiming.durations, buildTable, buildProtocol, pairToTicks, usConstants]
  have hfits : durationFits c.params.tickW (usToTicks c.params.clkHz 300) = true :=
    List.all_eq_true.mp c.valid _ hmem
  simp only [durationFits, Bool.and_eq_true, decide_eq_true_eq] at hfits
  unfold usToTicks at hfits
  omega

/-- From 3334 Hz on, two intervals at least 300 µs apart convert to different numbers of ticks (R131). -/
theorem usToTicks_lt {clkHz us us' : Nat} (hclk : 3334 ≤ clkHz) (h : us + 300 ≤ us') :
    usToTicks clkHz us < usToTicks clkHz us' := by
  have hgap : us * clkHz + 1000000 ≤ us' * clkHz := by
    calc us * clkHz + 1000000 ≤ us * clkHz + 300 * clkHz := by omega
      _ = (us + 300) * clkHz := (Nat.add_mul _ _ _).symm
      _ ≤ us' * clkHz := Nat.mul_le_mul_right _ h
  unfold usToTicks
  omega

/-- An entry of the table RESET builds is the converted constant (R132). -/
theorem buildTable_pair (clkHz : Nat) (p : Protocol) (k : PulseKind) :
    (buildTable clkHz).pair p k = pairToTicks clkHz (usConstants p k) := by
  cases p <;> cases k <;> rfl

/-- Two kinds of one protocol differ by at least 300 µs in the high or in the low duration (R130). -/
theorem usConstants_apart {p : Protocol} {k k' : PulseKind} (h : k ≠ k') :
    (usConstants p k).high + 300 ≤ (usConstants p k').high ∨ (usConstants p k').high + 300 ≤ (usConstants p k).high
    ∨ (usConstants p k).low + 300 ≤ (usConstants p k').low ∨ (usConstants p k').low + 300 ≤ (usConstants p k).low := by
  revert h
  cases p <;> cases k <;> cases k' <;> decide

/-- In a valid configuration the three pairs of a protocol differ (R138). -/
theorem Config.pair_injective (c : Config) (p : Protocol) :
    Function.Injective ((buildTable c.params.clkHz).pair p) := by
  intro k k' h
  by_contra hne
  simp only [buildTable_pair, pairToTicks, PulsePair.mk.injEq] at h
  obtain ⟨hhigh, hlow⟩ := h
  obtain hap | hap | hap | hap := usConstants_apart (p := p) hne <;>
    have hlt := usToTicks_lt c.clkHz_ge hap <;> omega

/-- A 0 and a 1 give two kinds of pulse (R135). -/
theorem kindOfBit_injective : Function.Injective kindOfBit := by
  unfold Function.Injective
  decide

/-- In a valid configuration a waveform tells its bits (R135, R138). -/
theorem Config.pulseEncode_inj (c : Config) {p : Protocol} {bs bs' : BitSequence} :
    pulseEncode (buildTable c.params.clkHz) p bs = pulseEncode (buildTable c.params.clkHz) p bs' ↔ bs = bs' := by
  have hmap := List.map_injective_iff.mpr ((c.pair_injective p).comp kindOfBit_injective)
  exact ⟨fun h => hmap (congrArg Waveform.rest h), fun h => by rw [h]⟩

/-- In a valid configuration a Socket waveform tells its packet (R136). -/
theorem Config.socketWave_inj (c : Config) {id id' : BitVec 8} {on on' : Bool} :
    socketWave c.params (buildTable c.params.clkHz) id on = socketWave c.params (buildTable c.params.clkHz) id' on' ↔
      packSocket c.params id on = packSocket c.params id' on' :=
  c.pulseEncode_inj.trans ⟨bitsOf_injective, congrArg bitsOf⟩

/-- In a valid configuration a Collar waveform tells its packet (R137). -/
theorem Config.collarWave_inj (c : Config) {id id' : BitVec 16} {ch ch' : BitVec 8} {act act' : Action}
    {x x' : BitVec 8} :
    collarWave (buildTable c.params.clkHz) id ch act x = collarWave (buildTable c.params.clkHz) id' ch' act' x' ↔
      packCollar id ch act x = packCollar id' ch' act' x' :=
  c.pulseEncode_inj.trans ((List.append_left_inj guardBits).trans ⟨bitsOf_injective, congrArg bitsOf⟩)

/-- A Socket waveform has 25 pairs and a Collar waveform 44, so they are never the same (R136, R137). -/
theorem socketWave_ne_collarWave (p : Params) (tt : TimingTable) (sid : BitVec 8) (on : Bool) (id : BitVec 16)
    (ch : BitVec 8) (act : Action) (x : BitVec 8) : socketWave p tt sid on ≠ collarWave tt id ch act x := by
  intro h
  have hlength := congrArg (fun w : Waveform => w.pairs.length) h
  simp [socketWave, collarWave, pulseEncode_length, guardBits] at hlength

/-! ### Two commands with one waveform (R150, R171) -/

/-- Two commands with one waveform and one repeat count complete alike: only the command that the port record names is
another, and neither is reported as malformed. -/
theorem enqueueCommand_alike {c c' : Command} {s : State}
    (hw : Command.waveform s.cfg.params s.tt c = Command.waveform s.cfg.params s.tt c')
    (hn : Command.copies c = Command.copies c') :
    ∃ (t : State) (a : Ack),
      enqueueCommand c s = { t with portlog := s.portlog ++ [.ack (some c) a] }
      ∧ enqueueCommand c' s = { t with portlog := s.portlog ++ [.ack (some c') a] }
      ∧ a ≠ .malformed ∧ t.malformedSeen = s.malformedSeen := by
  cases hq : withinDepth s.cfg.params.queueDepth (s.fifo.length + Command.copies c) with
  | true =>
    refine ⟨{ s with fifo := s.fifo ++ List.replicate (Command.copies c) (Command.waveform s.cfg.params s.tt c) }, .ok,
      enqueueCommand_of_within hq, ?_, nofun, rfl⟩
    rw [enqueueCommand_of_within (hn ▸ hq), ← hw, ← hn]
  | false =>
    exact ⟨{ s with faultOverflow := true }, .full, enqueueCommand_of_beyond hq,
      enqueueCommand_of_beyond (hn ▸ hq), nofun, rfl⟩

end Sys2Proof.Machine
end

section
/-! PROOF. The statements of 40_bitpacker.md: the packets, their checksum, and what a receiver can tell from a
waveform. -/

namespace Sys2Proof.Machine

open Sys2Proof

/-- Settles O6: the fields are read back, and `bits_40` starts with bit 39. -/
theorem collarPacketLayout : Obligations.CollarPacketLayout := by
  intro id ch act x
  obtain ⟨hid, hch, hact, hx⟩ := packCollar_fields id ch act x
  exact ⟨hid, hch, hact, hx, packCollar_checksum id ch act x, bitsOf_length _, fun k hk => bitsOf_getElem? _ k hk⟩

/-- Settles O7: each property is one of a clamped field or of the checksum. -/
theorem collarPacketProperties : Obligations.CollarPacketProperties := by
  intro id ch act x
  obtain ⟨-, hch, hact, hx⟩ := packCollar_fields id ch act x
  refine ⟨?_, ?_, hact ▸ actionCode_mem act, ?_⟩
  · have hbit : (packCollar id ch act x).getLsbD 15 = ((packCollar id ch act x).extractLsb' 8 8).getLsbD 7 := by
      simp
    rw [hbit, hx]
    exact Nat.testBit_lt_two_pow (by rw [clampIntensity_toNat]; omega)
  · have hcode := congrArg BitVec.toNat hch
    rw [toNat_slice, channelCode_toNat] at hcode
    apply BitVec.eq_of_toNat_eq
    rw [toNat_slice, BitVec.toNat_ofNat]
    omega
  · rw [packCollar_checksum, checksum_toNat]

/-- Settles O9: the packet is the code followed by the nibble, and `bits_24` starts with bit 23. -/
theorem socketPacketLayout : Obligations.SocketPacketLayout := by
  intro p id on
  obtain ⟨hcode, hid⟩ := packSocket_fields p id on
  exact ⟨hcode, hid, bitsOf_length _, fun k hk => bitsOf_getElem? _ k hk⟩

/-- Settles O10: one low nibble gives one packet, so one waveform, and ten copies of it are enqueued or refused. -/
theorem socketPacketUsesTheLowNibbleOnly : Obligations.SocketPacketUsesTheLowNibbleOnly := by
  refine ⟨fun p id id' on => by simp only [packSocket_inj, true_and], fun id id' on s hnibble => ?_⟩
  have hpacket : packSocket s.cfg.params id on = packSocket s.cfg.params id' on := packSocket_inj.mpr ⟨rfl, hnibble⟩
  have hwave : Command.waveform s.cfg.params s.tt (.socket id on) = Command.waveform s.cfg.params s.tt (.socket id' on) :=
    congrArg (fun q => pulseEncode s.tt .socket (bitsOf q)) hpacket
  obtain ⟨t, a, h, h', hack, hseen⟩ := enqueueCommand_alike hwave rfl
  exact ⟨t, a, (exec_command _ s).trans (congrArg _ h), (exec_command _ s).trans (congrArg _ h'), hack, hseen⟩

/-- Settles O20: the waveform tells the packet, and the packet its fields. -/
theorem collarWaveformDeterminesTheClampedCommand : Obligations.CollarWaveformDeterminesTheClampedCommand :=
  fun c _ _ _ _ _ _ _ _ => c.collarWave_inj.trans packCollar_inj

/-- Settles O21: the waveform tells the packet, and the packet its fields; a Collar waveform is longer. -/
theorem socketWaveformDeterminesCodeAndNibble : Obligations.SocketWaveformDeterminesCodeAndNibble :=
  fun c _ _ _ _ => ⟨c.socketWave_inj.trans packSocket_inj, socketWave_ne_collarWave _ _ _ _⟩

/-- Settles O8: each summand is at most its byte's maximum, 255, 255, 0x24 and 99, and the sum of those is evaluated. -/
theorem checksumIsTheSumModulo256 : Obligations.ChecksumIsTheSumModulo256 := by
  refine ⟨checksum_toNat, fun id ch act x => ?_, by decide, by decide, by decide⟩
  have hhigh := (id.extractLsb' 8 8).isLt
  have hlow := (id.extractLsb' 0 8).isLt
  have hact := actionCode_le act
  rw [toNat_append_add, channelCode_toNat, clampIntensity_toNat]
  omega

/-- Settles O11: the clamps as numbers, and the codes action by action. -/
theorem clampsAndFieldCodes : Obligations.ClampsAndFieldCodes := by
  refine ⟨fun ch => ⟨rfl, channelCode_toNat ch⟩, clampIntensity_toNat, fun d => ⟨rfl, ?_, ?_⟩, actionCode_eq,
    rfl, rfl, rfl, rfl⟩
  · exact Nat.le_max_left _ _
  · exact Nat.max_le.mpr ⟨by decide, Nat.min_le_right _ _⟩

end Sys2Proof.Machine
end

section
/-! SUPPORT. The conversion to ticks (R131), the twelve entries of the table (R132, R133), and a waveform pair by pair:
what it holds (R135), how long it takes (R141) and what it drives (R134); and what a schedule keeps (R231). -/

namespace Sys2Proof.Machine

open Sys2Proof

/-! ### The timing table (R130 to R133, R140) -/

/-- The ticks do not exceed the interval (R131). -/
theorem usToTicks_mul_le (clkHz us : Nat) : usToTicks clkHz us * 1000000 ≤ us * clkHz :=
  Nat.div_mul_le_self _ _

/-- One more tick would exceed the interval (R131). -/
theorem lt_succ_usToTicks_mul (clkHz us : Nat) : us * clkHz < (usToTicks clkHz us + 1) * 1000000 := by
  unfold usToTicks
  omega

/-- At 1 MHz a tick is a microsecond (R131). -/
theorem usToTicks_oneMHz (us : Nat) : usToTicks 1000000 us = us :=
  Nat.mul_div_cancel us (by decide)

/-- Every constant is at least 300 µs (R130). -/
theorem usConstants_ge (p : Protocol) (k : PulseKind) :
    300 ≤ (usConstants p k).high ∧ 300 ≤ (usConstants p k).low := by
  cases p <;> cases k <;> decide

/-- An interval of at least ten ticks loses at most a tenth of it to the truncation; 300 µs at 33334 Hz are ten ticks
(R140). -/
theorem usToTicks_ge_ninety_percent {clkHz us : Nat} (hclk : 33334 ≤ clkHz) (hus : 300 ≤ us) :
    9 * (us * clkHz) ≤ 10 * (usToTicks clkHz us * 1000000) := by
  have hten : 300 * 33334 ≤ us * clkHz := Nat.mul_le_mul hus hclk
  have hloss := lt_succ_usToTicks_mul clkHz us
  omega

/-- A fact about both protocols. -/
theorem Protocol.forall_iff {P : Protocol → Prop} : (∀ p, P p) ↔ P .socket ∧ P .collar :=
  ⟨fun h => ⟨h _, h _⟩, fun ⟨hsocket, hcollar⟩ p => match p with
    | .socket => hsocket
    | .collar => hcollar⟩

/-- A fact about the three pulse kinds. -/
theorem PulseKind.forall_iff {P : PulseKind → Prop} : (∀ k, P k) ↔ P .sync ∧ P .zero ∧ P .one :=
  ⟨fun h => ⟨h _, h _, h _⟩, fun ⟨hsync, hzero, hone⟩ k => match k with
    | .sync => hsync
    | .zero => hzero
    | .one => hone⟩

/-- The twelve durations of a table are the high and the low one of each protocol and kind (R23). -/
theorem TimingTable.forall_mem_durations_iff {tt : TimingTable} {P : Nat → Prop} :
    (∀ d ∈ tt.durations, P d) ↔ ∀ p k, P (tt.pair p k).high ∧ P (tt.pair p k).low := by
  simp [Protocol.forall_iff, PulseKind.forall_iff, TimingTable.durations, ProtocolTiming.durations,
    TimingTable.pair, ProtocolTiming.pair, and_assoc]

/-- Validity entry by entry (R133). -/
theorem validParams_iff_entries {p : Params} :
    validParams p = true ↔ ∀ (q : Protocol) (k : PulseKind),
      (1 ≤ usToTicks p.clkHz (usConstants q k).high ∧ usToTicks p.clkHz (usConstants q k).high ≤ 2 ^ p.tickW - 1)
      ∧ (1 ≤ usToTicks p.clkHz (usConstants q k).low ∧ usToTicks p.clkHz (usConstants q k).low ≤ 2 ^ p.tickW - 1) := by
  simp only [validParams, List.all_eq_true, TimingTable.forall_mem_durations_iff, buildTable_pair, pairToTicks,
    durationFits, Bool.and_eq_true, decide_eq_true_eq]

/-- The short form of validity (R133): the shortest constant lasts a tick, and the longest one fits. -/
theorem validParams_iff_bounds {p : Params} :
    validParams p = true ↔ 3334 ≤ p.clkHz ∧ 2280 * p.clkHz / 1000000 ≤ 2 ^ p.tickW - 1 := by
  refine ⟨fun h => ?_, fun ⟨hlo, hhi⟩ => validParams_of_bounds p hlo hhi⟩
  obtain ⟨-, -, hlongest⟩ := validParams_iff_entries.mp h .socket .sync
  exact ⟨Config.clkHz_ge ⟨p, h⟩, hlongest⟩

/-- A run starts from a valid configuration (R234). -/
theorem boot_of_valid {p : Params} (h : validParams p = true) (steps : List StepWord) :
    boot p steps = .next { State.afterReset ⟨p, h⟩ with schedule := steps } :=
  dif_pos h

/-- An invalid configuration is refused (R133, R201). -/
theorem boot_of_not_valid {p : Params} (h : ¬ validParams p = true) (steps : List StepWord) :
    boot p steps = .refused .configInvalid :=
  dif_neg h

/-! ### The pairs of a waveform (R135 to R138) -/

/-- The first pair of a waveform is the sync pair (R135). -/
theorem pulseEncode_pairs_zero (tt : TimingTable) (p : Protocol) (bs : BitSequence) :
    (pulseEncode tt p bs).pairs[0]? = some (tt.pair p .sync) := rfl

/-- After the sync pair, pair k stands for bit k (R135). -/
theorem pulseEncode_pairs_succ {tt : TimingTable} {p : Protocol} {bs : BitSequence} {k : Nat} {b : Bool}
    (h : bs[k]? = some b) :
    (pulseEncode tt p bs).pairs[k + 1]? = some (if b then tt.pair p .one else tt.pair p .zero) := by
  rw [pulseEncode_pairs, List.getElem?_cons_succ, List.getElem?_map, h]
  cases b <;> rfl

/-- The bits of a Collar waveform are the packet's, the most significant first, before its guard (R51, R137). -/
theorem collarBits_getElem?_packet {v : CollarPacket} {k : Nat} (hk : k < 40) :
    (bitsOf v ++ guardBits)[k]? = some (v.getLsbD (39 - k)) := by
  rw [List.getElem?_append_left (by simpa using hk), bitsOf_getElem? _ _ hk]

/-- The last three bits of a Collar waveform are the guard's zeros (R137). -/
theorem collarBits_getElem?_guard {v : CollarPacket} {k : Nat} (hlo : 40 ≤ k) (hhi : k < 43) :
    (bitsOf v ++ guardBits)[k]? = some false := by
  rw [List.getElem?_append_right (by simpa using hlo), bitsOf_length, guardBits,
    List.getElem?_replicate_of_lt (by omega)]

/-- No data bit is sent as a sync pair (R135). -/
theorem kindOfBit_ne_sync (b : Bool) : kindOfBit b ≠ .sync := by
  cases b <;> decide

/-! ### Airtime (R141) -/

/-- The ZERO and the ONE pair of a protocol take equally long: the two durations trade places (R130). -/
theorem buildTable_zero_one_ticks (clkHz : Nat) (p : Protocol) :
    ((buildTable clkHz).pair p .zero).high + ((buildTable clkHz).pair p .zero).low =
      ((buildTable clkHz).pair p .one).high + ((buildTable clkHz).pair p .one).low := by
  cases p <;> exact Nat.add_comm _ _

/-- The airtime of a waveform: the sync pair, and a ZERO pair's time for each bit, whichever it is (R141). -/
theorem pulseEncode_airtime (clkHz : Nat) (p : Protocol) (bs : BitSequence) :
    (pulseEncode (buildTable clkHz) p bs).airtime =
      ((buildTable clkHz).pair p .sync).high + ((buildTable clkHz).pair p .sync).low
      + bs.length * (((buildTable clkHz).pair p .zero).high + ((buildTable clkHz).pair p .zero).low) := by
  have hbit : ∀ b, ((buildTable clkHz).pair p (kindOfBit b)).high + ((buildTable clkHz).pair p (kindOfBit b)).low =
      ((buildTable clkHz).pair p .zero).high + ((buildTable clkHz).pair p .zero).low
    | true => (buildTable_zero_one_ticks clkHz p).symm
    | false => rfl
  simp [Waveform.airtime, pulseEncode_pairs, Function.comp_def, hbit]

/-- The airtime of a Socket waveform (R141). -/
theorem socketWave_airtime (clkHz : Nat) (p : Params) (id : BitVec 8) (on : Bool) :
    (socketWave p (buildTable clkHz) id on).airtime =
      (usToTicks clkHz 380 + usToTicks clkHz 2280) + 24 * (usToTicks clkHz 380 + usToTicks clkHz 1140) := by
  rw [socketWave, pulseEncode_airtime, bitsOf_length]
  rfl

/-- The airtime of a Collar waveform, its guard included (R141). -/
theorem collarWave_airtime (clkHz : Nat) (id : BitVec 16) (ch : BitVec 8) (act : Action) (x : BitVec 8) :
    (collarWave (buildTable clkHz) id ch act x).airtime =
      (usToTicks clkHz 1400 + usToTicks clkHz 800) + 43 * (usToTicks clkHz 300 + usToTicks clkHz 800) := by
  rw [collarWave, pulseEncode_airtime, List.length_append, bitsOf_length]
  rfl

/-! ### What a waveform drives (R134, R211) -/

/-- What the transmitter drives for one pair. -/
def PulsePair.levels (p : PulsePair) : List (Bool × Nat) :=
  [(true, p.high), (false, p.low)]

/-- A waveform drives its pairs one after the other. -/
theorem Waveform.levels_eq_flatMap (w : Waveform) : w.levels = w.pairs.flatMap PulsePair.levels := rfl

/-- Pair k gives the levels number 2k and 2k + 1. -/
theorem flatMap_levels_getElem? (ps : List PulsePair) (k : Nat) :
    (ps.flatMap PulsePair.levels)[2 * k]? = ps[k]?.map (fun p => (true, p.high))
    ∧ (ps.flatMap PulsePair.levels)[2 * k + 1]? = ps[k]?.map (fun p => (false, p.low)) := by
  induction ps generalizing k with
  | nil => exact ⟨rfl, rfl⟩
  | cons p ps ih =>
    cases k with
    | zero => exact ⟨rfl, rfl⟩
    | succ k => exact ih k

/-- The levels of some pairs take as long as the pairs. -/
theorem flatMap_levels_sum (ps : List PulsePair) :
    ((ps.flatMap PulsePair.levels).map fun l => l.2).sum = (ps.map fun p => p.high + p.low).sum := by
  induction ps with
  | nil => rfl
  | cons p ps ih => simp [PulsePair.levels, ih, Nat.add_assoc]

/-! ### A finite schedule (R139, R231) -/

/-- No schedule changes the configuration (R231). -/
theorem runWords_cfg_eq {ws : List StepWord} {s t : State} (h : runWords ws s = .next t) : t.cfg = s.cfg :=
  runWords_keeps (P := fun u => u.cfg = s.cfg) (Q := fun _ => True)
    (fun _ _ _ _ hu hr => (runWord_moves hr).cfg_eq.trans hu) ws s t (fun _ _ => trivial) rfl h

/-- Every schedule keeps the table of RESET (R61). -/
theorem runWords_keeps_tableInv {ws : List StepWord} {s t : State} (hs : TableInv s) (h : runWords ws s = .next t) :
    TableInv t :=
  runWords_keeps (P := TableInv) (Q := fun _ => True)
    (fun _ _ _ _ hu hr => (runWord_moves hr).keeps_tableInv hu) ws s t (fun _ _ => trivial) hs h

end Sys2Proof.Machine
end

section
/-! PROOF. The statements of 41_pulse_encoder.md: the timing table, the waveforms and what RESET and a schedule make of
both. -/

namespace Sys2Proof.Machine

open Sys2Proof

/-- Settles O13: the two bounds of a truncating division, and the twelve constants one by one. -/
theorem timingTableHoldsTheConvertedConstants : Obligations.TimingTableHoldsTheConvertedConstants := by
  refine ⟨fun clkHz us => ⟨usToTicks_mul_le clkHz us, lt_succ_usToTicks_mul clkHz us⟩, usToTicks_oneMHz,
    by decide, by decide, fun clkHz p k => ?_⟩
  rw [buildTable_pair]
  cases p <;> cases k <;> exact ⟨rfl, rfl⟩

/-- Settles O14: the shortest and the longest constant decide, and `boot` tests validity. -/
theorem configurationValidity : Obligations.ConfigurationValidity := by
  intro p
  refine ⟨validParams_iff_entries, validParams_iff_bounds, fun steps => ?_, fun steps => ?_⟩
  all_goals
    by_cases h : validParams p = true
    · simp [boot_of_valid h, h]
    · simp [boot_of_not_valid h, h]

/-- Settles O15: every constant is 300 µs or more, so ten ticks or more, of which the truncation drops less than one. -/
theorem timingWithinTenPercent : Obligations.TimingWithinTenPercent := by
  intro clkHz p k hclk
  obtain ⟨hhigh, hlow⟩ := usConstants_ge p k
  rw [buildTable_pair]
  exact ⟨usToTicks_ge_ninety_percent hclk hhigh, usToTicks_mul_le _ _,
    usToTicks_ge_ninety_percent hclk hlow, usToTicks_mul_le _ _⟩

/-- Settles O16: after the sync pair, pair k stands for bit k of the packet and the guard. -/
theorem dataPairsCarryThePacketBitsInOrder : Obligations.DataPairsCarryThePacketBitsInOrder := by
  refine ⟨fun p tt id on => ⟨?_, pulseEncode_pairs_zero _ _ _, fun k hk => ?_⟩,
    fun tt id ch act x => ⟨?_, pulseEncode_pairs_zero _ _ _, fun k hk => ?_, fun k hlo hhi => ?_⟩⟩
  · rw [socketWave, pulseEncode_length, bitsOf_length]
  · exact pulseEncode_pairs_succ (bitsOf_getElem? _ k hk)
  · rw [collarWave, pulseEncode_length, List.length_append, bitsOf_length]
    rfl
  · exact pulseEncode_pairs_succ (collarBits_getElem?_packet hk)
  · exact pulseEncode_pairs_succ (collarBits_getElem?_guard hlo hhi)

/-- Settles O17: the three pairs differ, and a later pair is that of a bit, whose kind is not SYNC. -/
theorem closedPulseAlphabet : Obligations.ClosedPulseAlphabet := by
  intro c p tt
  have hinj : Function.Injective (tt.pair p) := c.pair_injective p
  refine ⟨fun k k' => hinj.eq_iff, fun bs => ⟨rfl, fun q hq => ?_⟩⟩
  obtain ⟨b, -, rfl⟩ := List.mem_map.mp hq
  refine ⟨?_, hinj.ne (kindOfBit_ne_sync b)⟩
  cases b
  · exact .inl rfl
  · exact .inr rfl

/-- Settles O18: every bit takes the time of a ZERO pair, so the number of bits decides. -/
theorem airtimeIndependentOfTheData : Obligations.AirtimeIndependentOfTheData := by
  refine ⟨buildTable_zero_one_ticks, socketWave_airtime, collarWave_airtime, fun p id on => ?_,
    fun id ch act x => ?_, fun id ch act x => ?_⟩
  · rw [socketWave_airtime]
    decide
  · rw [collarWave_airtime]
    decide
  · rw [collarWave_airtime]
    decide

/-- Settles O19: by induction over the pairs, each of which is a high and a low level. -/
theorem waveformDrivesHighThenLow : Obligations.WaveformDrivesHighThenLow := by
  intro w k
  rw [Waveform.levels_eq_flatMap]
  obtain ⟨hhigh, hlow⟩ := flatMap_levels_getElem? w.pairs k
  exact ⟨hhigh, hlow, flatMap_levels_sum w.pairs⟩

/-- Settles O48: a waveform reads the configuration and the table alone, and the table is the configuration's. -/
theorem configurationAndWaveformsFixed : Obligations.ConfigurationAndWaveformsFixed := by
  intro ws s t hrun
  have hcfg : t.cfg = s.cfg := runWords_cfg_eq hrun
  refine ⟨hcfg, fun hs c => ?_⟩
  have ht : TableInv t := runWords_keeps_tableInv hs hrun
  have htt : t.tt = s.tt := by rw [ht, hs, hcfg]
  rw [hcfg, htt]

/-- Settles O32: the record RESET leaves, field by field. -/
theorem resetWritesEveryField : Obligations.ResetWritesEveryField :=
  fun s => ⟨resetRecord s, rfl, fun p k => buildTable_pair s.cfg.params.clkHz p k, rfl, rfl, rfl, rfl, rfl, rfl, rfl,
    rfl, rfl, rfl, rfl, rfl, rfl⟩

end Sys2Proof.Machine
end

section
/-! SUPPORT. The repeat count as an exact rounding (R153, R154), a command's outcome in terms of QUEUE_DEPTH (R171), and
which instructions are not enabled where (R183). -/

namespace Sys2Proof.Machine

open Sys2Proof

/-! ### The repeat count -/

/-- The range of the clamp (R105). -/
theorem clampDuration_mem (d : Nat) : 300 ≤ clampDuration d ∧ clampDuration d ≤ 10000 := by
  unfold clampDuration
  omega

/-- The minimum of one copy (R153) is never what decides: the clamped duration is 300 ms or more. -/
theorem repeatCount_eq_div (act : Action) (dur : BitVec 16) :
    repeatCount act dur = (clampDuration (durationInput act dur) + 25) / 50 := by
  obtain ⟨hlo, -⟩ := clampDuration_mem (durationInput act dur)
  exact max_eq_right (by omega)

/-- The repeat count is the clamped duration over 50 ms, rounded to the nearest with halves up (R153). -/
theorem repeatCount_rounds (act : Action) (dur : BitVec 16) :
    50 * repeatCount act dur ≤ clampDuration (durationInput act dur) + 25
    ∧ clampDuration (durationInput act dur) + 25 < 50 * (repeatCount act dur + 1) := by
  rw [repeatCount_eq_div]
  omega

/-- The repeat count's range, the images of the ends of the clamp's. -/
theorem repeatCount_mem (act : Action) (dur : BitVec 16) : 6 ≤ repeatCount act dur ∧ repeatCount act dur ≤ 200 := by
  obtain ⟨hlo, hhi⟩ := clampDuration_mem (durationInput act dur)
  obtain ⟨hle, hlt⟩ := repeatCount_rounds act dur
  omega

/-- Shock and Vibrate last as long as DUR says (R154). -/
theorem durationInput_of_timed {act : Action} (h : act = .shock ∨ act = .vibrate) (dur : BitVec 16) :
    durationInput act dur = dur.toNat := by
  obtain rfl | rfl := h <;> rfl

/-- Beep and Light do not read DUR (R154). -/
theorem durationInput_of_untimed {act : Action} (h : act = .beep ∨ act = .light) (dur : BitVec 16) :
    durationInput act dur = 0 := by
  obtain rfl | rfl := h <;> rfl

/-- Beep and Light have the least repeat count. -/
theorem repeatCount_of_untimed {act : Action} (h : act = .beep ∨ act = .light) (dur : BitVec 16) :
    repeatCount act dur = 6 := by
  rw [repeatCount, durationInput_of_untimed h]
  decide

/-! ### What a command does under each QUEUE_DEPTH -/

/-- An unbounded queue takes every command (R171). -/
theorem exec_command_of_unbounded (c : Command) {s : State} (h : s.cfg.params.queueDepth = .unbounded) :
    exec c.instr s = .next { s with
      fifo := s.fifo ++ List.replicate (Command.copies c) (Command.waveform s.cfg.params s.tt c)
      portlog := s.portlog ++ [.ack (some c) .ok] } := by
  rw [exec_command, enqueueCommand_of_within (by rw [h, withinDepth_unbounded])]

/-- A finite queue takes a command all of whose copies fit (R171). -/
theorem exec_command_of_fits (c : Command) {s : State} {d : Nat} (h : s.cfg.params.queueDepth = .finite d)
    (hfits : s.fifo.length + Command.copies c ≤ d) :
    exec c.instr s = .next { s with
      fifo := s.fifo ++ List.replicate (Command.copies c) (Command.waveform s.cfg.params s.tt c)
      portlog := s.portlog ++ [.ack (some c) .ok] } := by
  rw [exec_command, enqueueCommand_of_within (by rw [h, withinDepth_finite, decide_eq_true hfits])]

/-- A finite queue takes no copy of a command whose copies do not all fit (R171). -/
theorem exec_command_of_overflows (c : Command) {s : State} {d : Nat} (h : s.cfg.params.queueDepth = .finite d)
    (hover : d < s.fifo.length + Command.copies c) :
    exec c.instr s = .next { s with faultOverflow := true, portlog := s.portlog ++ [.ack (some c) .full] } := by
  rw [exec_command,
    enqueueCommand_of_beyond (by rw [h, withinDepth_finite, decide_eq_false (Nat.not_le_of_gt hover)])]

/-! ### Enabled instructions -/

/-- Only the transmitter and the synchronizer have steps that are not always enabled (R175 to R178). -/
theorem enabled_eq_false_iff {i : Instr} {s : State} :
    enabled i s = false ↔
      ((i = .txAccept ∨ i = .txReject) ∧ s.startPending = none)
      ∨ (i = .txDone ∧ s.inflight = none)
      ∨ (i = .sync ∧ s.donePending = false) := by
  cases i <;> simp [enabled]

/-- An instruction is refused exactly where it is not enabled (R183). -/
theorem exec_refused_iff_not_enabled {i : Instr} {s : State} :
    (∃ r, exec i s = .refused r) ↔ enabled i s = false := by
  simp only [exec_refused_iff, enabled_eq_false_iff, exists_or, exists_and_left, exists_eq, and_true]

/-- An instruction has a move exactly where it is not refused, for it never faults. -/
theorem exec_next_iff_not_refused {i : Instr} {s : State} :
    (∃ t, exec i s = .next t) ↔ ¬ ∃ r, exec i s = .refused r := by
  cases he : exec i s with
  | next t => simp
  | fault r => exact absurd he (exec_ne_fault i s r)
  | refused r => simp

end Sys2Proof.Machine
end

section
/-! PROOF. The statements of 42_commands.md: the repeat count, the two commands, and when an instruction has a move. -/

namespace Sys2Proof.Machine

open Sys2Proof

/-- Settles O22: dividing the clamped duration, 25 ms more, by 50 rounds it half-up; the ends of the clamp give 6 and
200. -/
theorem repeatCountRoundsHalfUp : Obligations.RepeatCountRoundsHalfUp := by
  refine ⟨repeatCount_mem, fun act dur hact => ?_, fun _ dur hact => repeatCount_of_untimed hact dur, by decide⟩
  have hrounds := repeatCount_rounds act dur
  rwa [durationInput_of_timed hact] at hrounds

/-- Settles O33: an instruction that does not move is refused, and that is where it is not enabled. -/
theorem stepHasAMoveExactlyWhenEnabled : Obligations.StepHasAMoveExactlyWhenEnabled := by
  refine fun i s => ⟨?_, exec_ne_fault i s⟩
  rw [exec_next_iff_not_refused, exec_refused_iff_not_enabled, Bool.not_eq_false]

/-- Settles O23: the command SOCKET, whose copies are ten. -/
theorem socketEnqueuesTenCopies : Obligations.SocketEnqueuesTenCopies :=
  fun id on _ => ⟨exec_command_of_unbounded (.socket id on), fun _ hd =>
    ⟨exec_command_of_fits (.socket id on) hd, exec_command_of_overflows (.socket id on) hd⟩⟩

/-- Settles O24: the command COLLAR, whose copies are its repeat count. -/
theorem collarEnqueuesItsRepeatCount : Obligations.CollarEnqueuesItsRepeatCount :=
  fun id ch act i dur _ => ⟨exec_command_of_unbounded (.collar id ch act i dur), fun _ hd =>
    ⟨exec_command_of_fits (.collar id ch act i dur) hd, exec_command_of_overflows (.collar id ch act i dur) hd⟩⟩

end Sys2Proof.Machine
end

section
/-! SUPPORT. The busy flag and the FIFO over one move (R180, R181); what lasts over a schedule that starts nothing: while
busy, while no completion is delivered, and after a failed start; and a step that does not end what a fair run waits for. -/

namespace Sys2Proof.Machine

open Sys2Proof

/-! ### An enabled instruction and a command word -/

/-- An instruction makes the move of its encoding. -/
theorem exec_of_move {i : Instr} {s t : State} (h : Move (encode i) s t) : exec i s = .next t :=
  (runWord_encode i s).symm.trans h.runWord_eq

/-- Every command word is taken in every state (R156). -/
theorem runWord_cmd_next (p : CmdWord) (s : State) : ∃ t, runWord ⟨0b000#3, p⟩ s = .next t := by
  obtain ⟨t, -, -, h, -⟩ := everyCommandWordIsAnsweredOnce p s
  exact ⟨t, h⟩

/-- A waveform offered, in flight or finished keeps the block busy (R35). -/
theorem HandshakeInv.busy_of_place {s : State} (h : HandshakeInv s)
    (hp : s.startPending.isSome = true ∨ s.inflight.isSome = true ∨ s.donePending = true) : s.busy = true := by
  rw [h.busy_iff]
  obtain hp | hp | hp := hp <;> simp [hp]

/-- After a failed start the block is busy and nothing is offered, in flight or finished (R176). -/
theorem HandshakeInv.of_failed {s : State} (h : HandshakeInv s) (hx : s.faultTxStart = true) :
    s.busy = true ∧ s.startPending = none ∧ s.inflight = none ∧ s.donePending = false := by
  have hb : s.busy = true := by simp [h.busy_iff, hx]
  have hnone : placesTaken s = 0 := h.fault_quiet hx
  exact ⟨hb, by simpa [placesTaken, and_assoc] using hnone⟩

/-! ### The busy flag (R180) -/

/-- Only a TICK sets busy. -/
theorem Move.tick_of_sets_busy {w : StepWord} {s t : State} (hm : Move w s t) (hb : s.busy = false)
    (ht : t.busy = true) : decode w = .instr .tick := by
  cases hm with
  | start v rest hd => exact hd
  | sync | reset => cases ht
  | accepted | full | malformed | poll | accept | reject | done | status => simp [hb] at ht

/-- Only a SYNC or a RESET clears busy. -/
theorem Move.sync_or_reset_of_clears_busy {w : StepWord} {s t : State} (hm : Move w s t) (hb : s.busy = true)
    (ht : t.busy = false) : decode w = .instr .sync ∨ decode w = .instr .reset := by
  cases hm with
  | sync hd => exact .inl hd
  | reset hd => exact .inr hd
  | start => cases ht
  | accepted | full | malformed | poll | accept | reject | done | status => simp [hb] at ht

/-! ### The FIFO and the waveform in flight (R181) -/

/-- No move but a TICK or a RESET takes anything from the FIFO. -/
theorem Move.fifo_prefix {w : StepWord} {s t : State} (hm : Move w s t) (hk : decode w ≠ .instr .tick)
    (hr : decode w ≠ .instr .reset) : s.fifo <+: t.fifo := by
  cases hm with
  | accepted => exact List.prefix_append _ _
  | start v rest hd => exact absurd hd hk
  | reset hd => exact absurd hd hr
  | full | malformed | poll | accept | reject | done | sync | status => exact List.prefix_rfl

/-- A TICK leaves the FIFO alone or offers its head. -/
theorem Move.fifo_of_tick {w : StepWord} {s t : State} (hm : Move w s t) (hk : decode w = .instr .tick) :
    s.fifo = t.fifo ∨ ∃ v, s.fifo = v :: t.fifo ∧ t.startPending = some v := by
  have hexec : execTick s = .next t := (runWord_of_decode hk s).symm.trans hm.runWord_eq
  obtain ⟨v, rest, -, hf, he⟩ | ⟨-, he⟩ := execTick_cases s
  · cases he.symm.trans hexec
    exact .inr ⟨v, hf, rfl⟩
  · cases he.symm.trans hexec
    exact .inl rfl

/-- No move but TX_ACCEPT, TX_DONE or RESET writes the waveform in flight. -/
theorem Move.inflight_eq {w : StepWord} {s t : State} (hm : Move w s t) (ha : decode w ≠ .instr .txAccept)
    (hd : decode w ≠ .instr .txDone) (hr : decode w ≠ .instr .reset) : t.inflight = s.inflight := by
  cases hm with
  | accept v h => exact absurd h ha
  | done v h => exact absurd h hd
  | reset h => exact absurd h hr
  | accepted | full | malformed | start | poll | reject | sync | status => rfl

/-- TX_ACCEPT moves only where something is offered. -/
theorem Move.not_txAccept_of_no_offer {w : StepWord} {s t : State} (hm : Move w s t) (hp : s.startPending = none) :
    decode w ≠ .instr .txAccept := by
  intro ha
  obtain ⟨v, hv, -⟩ := execTxAccept_next ((runWord_of_decode ha s).symm.trans hm.runWord_eq)
  cases hp.symm.trans hv

/-- SYNC moves only where a completion is pending. -/
theorem Move.not_sync_of_no_completion {w : StepWord} {s t : State} (hm : Move w s t) (hp : s.donePending = false) :
    decode w ≠ .instr .sync := by
  intro hs
  obtain ⟨hd, -⟩ := execSync_next ((runWord_of_decode hs s).symm.trans hm.runWord_eq)
  cases hp.symm.trans hd

/-! ### While busy (R170, R184) -/

/-- From `s` to `u` busy has stayed 1 and nothing was taken from the FIFO. -/
structure StaysBusy (s u : State) : Prop where
  busy : u.busy = true
  popped : u.popped = s.popped
  fifo : s.fifo <+: u.fifo

/-- A busy state has stayed busy up to itself. -/
theorem StaysBusy.refl {s : State} (hb : s.busy = true) : StaysBusy s s :=
  ⟨hb, rfl, List.prefix_rfl⟩

/-- While busy, no move but RESET starts anything: a TICK only polls. -/
theorem Move.starts_nothing_of_busy {w : StepWord} {s t : State} (hm : Move w s t) (hb : s.busy = true)
    (hr : decode w ≠ .instr .reset) : t.popped = s.popped ∧ s.fifo <+: t.fifo := by
  cases hm with
  | start v rest hd hidle => cases hidle.symm.trans hb
  | accepted => exact ⟨rfl, List.prefix_append _ _⟩
  | reset hd => exact absurd hd hr
  | full | malformed | poll | accept | reject | done | sync | status => exact ⟨rfl, List.prefix_rfl⟩

/-- A move other than SYNC and RESET lets the block stay busy. -/
theorem Move.keeps_staysBusy {w : StepWord} {s u t : State} (hm : Move w u t) (h : StaysBusy s u)
    (hs : decode w ≠ .instr .sync) (hr : decode w ≠ .instr .reset) : StaysBusy s t := by
  obtain ⟨hpop, hfifo⟩ := hm.starts_nothing_of_busy h.busy hr
  refine ⟨?_, hpop.trans h.popped, h.fifo.trans hfifo⟩
  exact Bool.eq_true_of_not_eq_false fun ht => (hm.sync_or_reset_of_clears_busy h.busy ht).elim hs hr

/-- A schedule without SYNC and RESET lets a busy block stay busy. -/
theorem runWords_staysBusy {ws : List StepWord} {s t : State} (hb : s.busy = true)
    (hws : ∀ w ∈ ws, decode w ≠ .instr .sync ∧ decode w ≠ .instr .reset) (h : runWords ws s = .next t) :
    StaysBusy s t :=
  runWords_keeps (P := StaysBusy s) (fun _ _ _ hw hu hr => (runWord_moves hr).keeps_staysBusy hu hw.1 hw.2)
    ws s t hws (.refl hb) h

/-! ### Without a completion (R182) -/

/-- From `s` to `u` the block has stayed busy and no completion is pending. -/
structure AwaitsDone (s u : State) : Prop where
  stays : StaysBusy s u
  no_completion : u.donePending = false

/-- Only a TX_DONE makes a completion pending. -/
theorem Move.keeps_no_completion {w : StepWord} {s t : State} (hm : Move w s t) (hd : decode w ≠ .instr .txDone)
    (hp : s.donePending = false) : t.donePending = false := by
  cases hm with
  | done v h => exact absurd h hd
  | sync | reset => rfl
  | accepted | full | malformed | start | poll | accept | reject | status => exact hp

/-- A move other than TX_DONE and RESET goes on waiting: without a completion it is no SYNC. -/
theorem Move.keeps_awaitsDone {w : StepWord} {s u t : State} (hm : Move w u t) (h : AwaitsDone s u)
    (hd : decode w ≠ .instr .txDone) (hr : decode w ≠ .instr .reset) : AwaitsDone s t :=
  ⟨hm.keeps_staysBusy h.stays (hm.not_sync_of_no_completion h.no_completion) hr,
    hm.keeps_no_completion hd h.no_completion⟩

/-- A schedule without TX_DONE and RESET goes on waiting. -/
theorem runWords_awaitsDone {ws : List StepWord} {s t : State} (hb : s.busy = true) (hp : s.donePending = false)
    (hws : ∀ w ∈ ws, decode w ≠ .instr .txDone ∧ decode w ≠ .instr .reset) (h : runWords ws s = .next t) :
    AwaitsDone s t :=
  runWords_keeps (P := AwaitsDone s) (fun _ _ _ hw hu hr => (runWord_moves hr).keeps_awaitsDone hu hw.1 hw.2)
    ws s t hws ⟨.refl hb, hp⟩ h

/-! ### The second start (R184) -/

/-- Between being busy and the next start lies a SYNC. -/
theorem exists_sync_of_start {ws : List StepWord} {s t : State} (hb : s.busy = true)
    (hws : ∀ w ∈ ws, decode w ≠ .instr .reset) (h : runWords ws s = .next t) (hpop : t.popped ≠ s.popped) :
    ∃ sync ∈ ws, decode sync = .instr .sync := by
  by_contra hno
  push Not at hno
  exact hpop (runWords_staysBusy hb (fun w hw => ⟨hno w hw, hws w hw⟩) h).popped

/-- Between being busy without a completion and the next start lie a TX_DONE and, after it, a SYNC: by induction on
the schedule up to the first TX_DONE. -/
theorem exists_done_sync_of_start {ws : List StepWord} {s t : State} (hb : s.busy = true) (hp : s.donePending = false)
    (hws : ∀ w ∈ ws, decode w ≠ .instr .reset) (h : runWords ws s = .next t) (hpop : t.popped ≠ s.popped) :
    ∃ (before between after : List StepWord) (done sync : StepWord),
      ws = before ++ done :: between ++ sync :: after
      ∧ decode done = .instr .txDone ∧ decode sync = .instr .sync := by
  induction ws generalizing s with
  | nil => cases h; exact absurd rfl hpop
  | cons w ws ih =>
    obtain ⟨hr, hws⟩ := List.forall_mem_cons.mp hws
    obtain ⟨u, hw, hrest⟩ := runWords_cons_next h
    have hm : Move w s u := runWord_moves hw
    have hstays : StaysBusy s u := hm.keeps_staysBusy (.refl hb) (hm.not_sync_of_no_completion hp) hr
    have hlater : t.popped ≠ u.popped := hstays.popped ▸ hpop
    by_cases hd : decode w = .instr .txDone
    · obtain ⟨sync, hmem, hsync⟩ := exists_sync_of_start hstays.busy hws hrest hlater
      obtain ⟨between, after, rfl⟩ := List.append_of_mem hmem
      exact ⟨[], between, after, w, sync, rfl, hd, hsync⟩
    · obtain ⟨before, between, after, done, sync, rfl, hdone, hsync⟩ :=
        ih hstays.busy (hm.keeps_no_completion hd hp) hws hrest hlater
      exact ⟨w :: before, between, after, done, sync, rfl, hdone, hsync⟩

/-! ### After a failed start (R176, R203) -/

/-- From `s` to `u` nothing was started or transmitted, and in `u` a start has failed. -/
structure StaysFailed (s u : State) : Prop where
  handshake : HandshakeInv u
  failed : u.faultTxStart = true
  stays : StaysBusy s u
  txlog : u.txlog = s.txlog

/-- Only RESET clears TX_START (R202). -/
theorem Move.keeps_faultTxStart {w : StepWord} {s t : State} (hm : Move w s t) (hr : decode w ≠ .instr .reset)
    (hx : s.faultTxStart = true) : t.faultTxStart = true := by
  cases hm with
  | reset hd => exact absurd hd hr
  | reject => rfl
  | accepted | full | malformed | start | poll | accept | done | sync | status => exact hx

/-- Only TX_ACCEPT and RESET write `txlog` (R34). -/
theorem Move.txlog_eq {w : StepWord} {s t : State} (hm : Move w s t) (ha : decode w ≠ .instr .txAccept)
    (hr : decode w ≠ .instr .reset) : t.txlog = s.txlog := by
  cases hm with
  | accept v h => exact absurd h ha
  | reset h => exact absurd h hr
  | accepted | full | malformed | start | poll | reject | done | sync | status => rfl

/-- After a failed start no move but RESET starts or transmits: there is nothing to accept and nothing to
synchronize. -/
theorem Move.keeps_staysFailed {w : StepWord} {s u t : State} (hm : Move w u t) (h : StaysFailed s u)
    (hr : decode w ≠ .instr .reset) : StaysFailed s t := by
  obtain ⟨-, hp, -, hd⟩ := h.handshake.of_failed h.failed
  exact ⟨hm.keeps_handshakeInv h.handshake, hm.keeps_faultTxStart hr h.failed,
    hm.keeps_staysBusy h.stays (hm.not_sync_of_no_completion hd) hr,
    (hm.txlog_eq (hm.not_txAccept_of_no_offer hp) hr).trans h.txlog⟩

/-- After a failed start no schedule without RESET starts or transmits anything. -/
theorem runWords_staysFailed {ws : List StepWord} {s t : State} (hh : HandshakeInv s) (hx : s.faultTxStart = true)
    (hws : ∀ w ∈ ws, decode w ≠ .instr .reset) (h : runWords ws s = .next t) : StaysFailed s t := by
  obtain ⟨hb, -⟩ := hh.of_failed hx
  exact runWords_keeps (P := StaysFailed s) (fun _ _ _ hw hu hr => (runWord_moves hr).keeps_staysFailed hu hw)
    ws s t hws ⟨hh, hx, .refl hb, rfl⟩ h

/-! ### Fair runs (R215) -/

/-- What a place holds ends with step `i` only, so a place that is empty after another step was empty before it. -/
theorem eq_none_of_endsWith {place : State → Option Waveform} {i : Instr} {σ : Nat → State} {e : Nat → StepWord}
    {n : Nat} (hends : ∀ v, place (σ n) = some v → EndsWith place i σ e n v) (hd : decode (e n) ≠ .instr i)
    (hempty : place (σ (n + 1)) = none) : place (σ n) = none := by
  refine Option.eq_none_iff_forall_ne_some.mpr fun v hv => ?_
  obtain ⟨m, hnm, hm, hheld⟩ := hends v hv
  have hne : n ≠ m := fun heq => hd (heq ▸ hm)
  have hkept : place (σ (n + 1)) = some v := hheld (n + 1) (by omega) (by omega)
  cases hempty.symm.trans hkept

end Sys2Proof.Machine
end

section
/-! PROOF. The statements of 43_transmit_queue.md: the Dispatcher, the transmitter's answers, the synchronizer, and when
the next waveform may start. -/

namespace Sys2Proof.Machine

open Sys2Proof

/-- Settles O28: the rejected state is one of a failed start, which no schedule without RESET leaves. -/
theorem txRejectDiscardsTheOffer : Obligations.TxRejectDiscardsTheOffer := by
  refine ⟨fun p => rfl, fun s => ⟨fun v hp => ?_, fun hp => exec_refused_iff.mpr (.inl ⟨.inr rfl, hp, rfl⟩)⟩⟩
  have hm : Move (encode .txReject) s { s with startPending := none, faultTxStart := true } :=
    .reject v (decode_encode .txReject) hp
  refine ⟨exec_of_move hm, fun hh => ⟨(hh.of_offered hp).1, fun ws u hws h => ?_⟩⟩
  obtain ⟨-, -, hstays, -⟩ := runWords_staysFailed (hm.keeps_handshakeInv hh) rfl hws h
  exact ⟨hstays.busy, hstays.popped, execTick_idle (.inl hstays.busy), fun p => runWord_cmd_next p u⟩

/-- Settles O43: each move that changes busy names its step. -/
theorem busyIsWrittenByTickSyncAndResetOnly : Obligations.BusyIsWrittenByTickSyncAndResetOnly :=
  fun _ _ _ h => ⟨(runWord_moves h).tick_of_sets_busy, (runWord_moves h).sync_or_reset_of_clears_busy⟩

/-- Settles O47: under the handshake invariant a waveform in flight leaves nothing for TX_ACCEPT to put in its place. -/
theorem noCancellation : Obligations.NoCancellation := by
  intro w s t h hr
  have hm : Move w s t := runWord_moves h
  have flight : ∀ v, s.inflight = some v → decode w ≠ .instr .txDone → decode w ≠ .instr .txAccept →
      t.inflight = some v := fun v hv hd ha => (hm.inflight_eq ha hd hr).trans hv
  refine ⟨fun hk => hm.fifo_prefix hk hr, hm.fifo_of_tick, flight, fun v hh hv hd => flight v hv hd ?_⟩
  obtain ⟨-, hp, -⟩ := hh.of_inflight hv
  exact hm.not_txAccept_of_no_offer hp

/-- Settles O49: after a start the block is busy without a completion. -/
theorem noSecondStartBeforeDoneAndSync : Obligations.NoSecondStartBeforeDoneAndSync := by
  intro ws s t hh hp hws h hpop
  obtain ⟨v, hv⟩ := Option.isSome_iff_exists.mp hp
  obtain ⟨hb, -, hd, -⟩ := hh.of_offered hv
  exact exists_done_sync_of_start hb hd hws h hpop

/-- Settles O50: each move but SYNC and RESET keeps busy at 1, and a TICK that finds it so only polls. -/
theorem nothingStartsWhileTransmitting : Obligations.NothingStartsWhileTransmitting := by
  intro ws s t hb hws h
  obtain ⟨hbusy, hpop, hfifo⟩ := runWords_staysBusy hb hws h
  exact ⟨hbusy, hpop, hfifo⟩

/-- Settles O51: without a TX_DONE no completion is pending, so no SYNC moves. -/
theorem busyForeverWithoutCompletion : Obligations.BusyForeverWithoutCompletion := by
  intro ws s t hb hp hws h
  obtain ⟨hstays, -⟩ := runWords_awaitsDone hb hp hws h
  exact ⟨hstays.busy, hstays.popped⟩

/-- Settles O52: busy is 1 with no place taken, so no TICK, TX_ACCEPT or SYNC does anything. -/
theorem failedStartStopsDispatchUntilReset : Obligations.FailedStartStopsDispatchUntilReset := by
  intro ws s t hh hx hws h
  obtain ⟨-, hfailed, ⟨hbusy, hpop, hfifo⟩, hlog⟩ := runWords_staysFailed hh hx hws h
  exact ⟨hbusy, hfailed, hpop, hlog, hfifo, fun p => runWord_cmd_next p t⟩

/-- Settles O59: a TX_REJECT or a RESET would empty at once the place whose end TX_FAIR promises. -/
theorem txFairRunsLoseNoOfferedOrInFlightWaveform : Obligations.TxFairRunsLoseNoOfferedOrInFlightWaveform := by
  intro σ e hrun hfair n
  have step : ∀ {i : Instr}, decode (e n) = .instr i → exec i (σ n) = .next (σ (n + 1)) :=
    fun hd => (runWord_of_decode hd (σ n)).symm.trans (hrun n)
  refine ⟨fun hd => ?_, fun hd => ?_⟩
  · obtain ⟨v, hv, hnext⟩ := execTxReject_next (step hd)
    have hnone := eq_none_of_endsWith (hfair.accepts n) (by simp [hd]) (by rw [hnext])
    cases hnone.symm.trans hv
  · have hnext : resetRecord (σ n) = σ (n + 1) := by simpa [exec, execReset] using step hd
    exact ⟨eq_none_of_endsWith (hfair.accepts n) (by simp [hd]) (by rw [← hnext, resetRecord_startPending]),
      eq_none_of_endsWith (hfair.finishes n) (by simp [hd]) (by rw [← hnext, resetRecord_inflight])⟩

/-- Settles O26: TICK with work when Idle, and TICK otherwise. -/
theorem tickStartsTheHeadWhenIdle : Obligations.TickStartsTheHeadWhenIdle :=
  ⟨fun _ => rfl, fun _ => ⟨fun _ _ => execTick_start, fun hb => execTick_idle (.inl hb),
    fun hf => execTick_idle (.inr hf)⟩⟩

/-- Settles O27: the move `accept`, and the refusal without an offer. -/
theorem txAcceptLatchesTheOffer : Obligations.TxAcceptLatchesTheOffer :=
  ⟨fun _ => rfl, fun _ => ⟨fun v hp => ⟨exec_of_move (.accept v (decode_encode .txAccept) hp),
    fun hh => (hh.of_offered hp).1⟩, fun hp => exec_refused_iff.mpr (.inl ⟨.inl rfl, hp, rfl⟩)⟩⟩

/-- Settles O29: the move `done`, and the refusal with nothing in flight. -/
theorem txDoneEntersTheSynchronizer : Obligations.TxDoneEntersTheSynchronizer :=
  ⟨fun _ => rfl, fun _ => ⟨fun v hp => ⟨exec_of_move (.done v (decode_encode .txDone) hp),
    fun hh => (hh.of_inflight hp).1⟩, fun hp => exec_refused_iff.mpr (.inr (.inl ⟨rfl, hp, rfl⟩))⟩⟩

/-- Settles O30: the move `sync`; and a taken place keeps the block busy, so that TICK only polls. -/
theorem syncClearsBusy : Obligations.SyncClearsBusy :=
  ⟨fun _ => rfl, fun _ => ⟨fun hp => exec_of_move (.sync (decode_encode .sync) hp),
    fun hp => exec_refused_iff.mpr (.inr (.inr ⟨rfl, hp, rfl⟩)),
    fun hh hp => execTick_idle (.inl (hh.busy_of_place hp))⟩⟩

end Sys2Proof.Machine
end

section
/-! SUPPORT. The sticky bits over one move (R202); how many copies a command has; what waits in an infinite run
until a fair step ends it, and what a fair run without RESET and failed start does (R215, R216). -/

namespace Sys2Proof.Machine

open Sys2Proof

/-! ### The sticky bits (R201, R202) -/

/-- A step that runs a command carries the label CMD (R79). -/
theorem label_of_decode_command {w : StepWord} {c : Command} (hd : decode w = .instr c.instr) :
    w.label = 0b000#3 :=
  (label_of_decode_instr hd).trans (by cases c <;> rfl)

/-- Only RESET clears MALFORMED_SEEN (R202). -/
theorem Move.keeps_malformedSeen {w : StepWord} {s t : State} (hm : Move w s t) (hr : decode w ≠ .instr .reset)
    (hs : s.malformedSeen = true) : t.malformedSeen = true := by
  cases hm with
  | reset hd => exact absurd hd hr
  | malformed => rfl
  | accepted | full | start | poll | accept | reject | done | sync | status => exact hs

/-- Only RESET clears OVERFLOW (R202). -/
theorem Move.keeps_faultOverflow {w : StepWord} {s t : State} (hm : Move w s t) (hr : decode w ≠ .instr .reset)
    (hs : s.faultOverflow = true) : t.faultOverflow = true := by
  cases hm with
  | reset hd => exact absurd hd hr
  | full => rfl
  | accepted | malformed | start | poll | accept | reject | done | sync | status => exact hs

/-- Only a CMD step, and then a malformed one, sets MALFORMED_SEEN (R155). -/
theorem Move.cmd_of_sets_malformedSeen {w : StepWord} {s t : State} (hm : Move w s t)
    (hs : s.malformedSeen = false) (ht : t.malformedSeen = true) : w.label = 0b000#3 := by
  cases hm with
  | malformed why hd => exact label_of_decode_malformed hd
  | reset => cases ht
  | accepted | full | start | poll | accept | reject | done | sync | status => cases hs.symm.trans ht

/-- Only a CMD step, and then a command answered FULL, sets OVERFLOW (R171). -/
theorem Move.cmd_of_sets_faultOverflow {w : StepWord} {s t : State} (hm : Move w s t)
    (hs : s.faultOverflow = false) (ht : t.faultOverflow = true) : w.label = 0b000#3 := by
  cases hm with
  | full c hd => exact label_of_decode_command hd
  | reset => cases ht
  | accepted | malformed | start | poll | accept | reject | done | sync | status => cases hs.symm.trans ht

/-- Only TX_REJECT sets TX_START (R176). -/
theorem Move.txReject_of_sets_faultTxStart {w : StepWord} {s t : State} (hm : Move w s t)
    (hs : s.faultTxStart = false) (ht : t.faultTxStart = true) : decode w = .instr .txReject := by
  cases hm with
  | reject v hd => exact hd
  | reset => cases ht
  | accepted | full | malformed | start | poll | accept | done | sync | status => cases hs.symm.trans ht

/-! ### The copies of a command (R153, R158) -/

/-- A command enqueues at least one copy. -/
theorem Command.copies_pos (c : Command) : 0 < Command.copies c := by
  cases c with
  | socket id on => exact Nat.succ_pos 9
  | collar id ch act x dur => exact Nat.lt_of_lt_of_le (by decide) (repeatCount_mem act dur).1

/-! ### One TICK as a schedule (R173) -/

/-- A TICK that finds the block Idle with work starts the head of the FIFO. -/
theorem runWords_tick_of_idle {s : State} {v : Waveform} {rest : List Waveform} (hb : s.busy = false)
    (hf : s.fifo = v :: rest) :
    runWords [encode .tick] s =
      .next { s with busy := true, fifo := rest, startPending := some v, popped := s.popped ++ [v] } :=
  runWords_cons_of_next (Move.start v rest (decode_encode .tick) hb hf).runWord_eq

/-- A TICK that finds the block Transmitting or the FIFO empty changes nothing for the steps after it. -/
theorem runWords_tick_of_poll {s : State} (ws : List StepWord) (h : s.busy = true ∨ s.fifo = []) :
    runWords (encode .tick :: ws) s = runWords ws s :=
  runWords_cons_of_next (Move.poll (decode_encode .tick) h).runWord_eq

/-! ### What one move adds to the records (R34, R185) -/

/-- A move keeps all the invariants of the block. -/
theorem Move.keeps_blockInv {w : StepWord} {s t : State} (hm : Move w s t) (h : BlockInv s) : BlockInv t where
  handshake := hm.keeps_handshakeInv h.handshake
  conserved := hm.keeps_fifoConserved h.conserved
  txlog := hm.keeps_txlogInv h.handshake h.txlog
  table := hm.keeps_tableInv h.table
  depth := hm.keeps_depthInv h.depth
  report := hm.keeps_reportInv h.report

/-- Without RESET, what was enqueued stays enqueued, in order. -/
theorem Move.enqueued_prefix {w : StepWord} {s t : State} (hm : Move w s t) (hr : decode w ≠ .instr .reset) :
    enqueuedSinceReset s <+: enqueuedSinceReset t := by
  cases hm with
  | reset hd => exact absurd hd hr
  | accepted | full | malformed | status => exact (List.prefix_append _ _).flatMap _
  | start | poll | accept | reject | done | sync => exact List.prefix_rfl

/-- Without RESET, `txlog` only grows (R34). -/
theorem Move.txlog_prefix {w : StepWord} {s t : State} (hm : Move w s t) (hr : decode w ≠ .instr .reset) :
    s.txlog <+: t.txlog := by
  cases hm with
  | reset hd => exact absurd hd hr
  | accept => exact List.prefix_append _ _
  | accepted | full | malformed | start | poll | reject | done | sync | status => exact List.prefix_rfl

/-- Only SYNC and RESET end a pending completion, and SYNC leaves the block Idle (R178). -/
theorem Move.completion_pending_or_idle {w : StepWord} {s t : State} (hm : Move w s t)
    (hr : decode w ≠ .instr .reset) (hp : s.donePending = true) : t.donePending = true ∨ t.busy = false := by
  cases hm with
  | reset hd => exact absurd hd hr
  | sync => exact .inr rfl
  | done => exact .inl rfl
  | accepted | full | malformed | start | poll | accept | reject | status => exact .inl hp

/-- Idle with work stays so until a start offers a waveform (R173). -/
theorem Move.idle_with_work_or_offered {w : StepWord} {s t : State} (hm : Move w s t)
    (hr : decode w ≠ .instr .reset) (h : s.busy = false ∧ s.fifo ≠ []) :
    (t.busy = false ∧ t.fifo ≠ []) ∨ ∃ v, t.startPending = some v := by
  obtain ⟨hb, hf⟩ := h
  cases hm with
  | reset hd => exact absurd hd hr
  | start v => exact .inr ⟨v, rfl⟩
  | accepted => exact .inl ⟨hb, List.append_ne_nil_of_left_ne_nil hf _⟩
  | sync => exact .inl ⟨rfl, hf⟩
  | full | malformed | poll | accept | reject | done | status => exact .inl ⟨hb, hf⟩

/-! ### Infinite runs (R215) -/

/-- What stays as it is until `Q` happens, and cannot stay so for ever, leads to `Q`: the one argument from fairness. -/
theorem eventually_of_unless {P Q : Nat → Prop} {n : Nat} (hp : P n)
    (hstep : ∀ k, n ≤ k → P k → P (k + 1) ∨ Q (k + 1)) (hfair : (∀ k, n ≤ k → P k) → ∃ m, n ≤ m ∧ Q m) :
    ∃ m, n ≤ m ∧ Q m := by
  by_contra hno
  push Not at hno
  have hstays : ∀ k, n ≤ k → P k := fun k hk => by
    induction k, hk using Nat.le_induction with
    | base => exact hp
    | succ k hk ih => exact (hstep k hk ih).resolve_right (hno (k + 1) (Nat.le_succ_of_le hk))
  obtain ⟨m, hm, hq⟩ := hfair hstays
  exact hno m hm hq

/-- The runs R216 speaks of: from a state of the invariants, fair, without RESET and without a failed start. -/
structure FairRun (σ : Nat → State) (e : Nat → StepWord) : Prop where
  run : IsRun σ e
  start : BlockInv (σ 0)
  no_reset : ∀ n, decode (e n) ≠ .instr .reset
  no_failed_start : ∀ n, (σ n).faultTxStart = false
  tick : TickFair e
  sync : SyncFair σ e
  tx : TxFair σ e

section
variable {σ : Nat → State} {e : Nat → StepWord}

/-- Each step of the run is a move. -/
theorem FairRun.move (h : FairRun σ e) (n : Nat) : Move (e n) (σ n) (σ (n + 1)) :=
  runWord_moves (h.run n)

/-- A step that is known runs its instruction (R79). -/
theorem FairRun.exec_eq (h : FairRun σ e) {n : Nat} {i : Instr} (hd : decode (e n) = .instr i) :
    exec i (σ n) = .next (σ (n + 1)) :=
  (runWord_of_decode hd (σ n)).symm.trans (h.run n)

/-- The invariants hold at every point. -/
theorem FairRun.blockInv (h : FairRun σ e) (n : Nat) : BlockInv (σ n) := by
  induction n with
  | zero => exact h.start
  | succ n ih => exact (h.move n).keeps_blockInv ih

/-- What was enqueued stays enqueued, in order. -/
theorem FairRun.enqueued_prefix (h : FairRun σ e) {n m : Nat} (hnm : n ≤ m) :
    enqueuedSinceReset (σ n) <+: enqueuedSinceReset (σ m) :=
  Nat.rel_of_forall_rel_succ_of_le (f := fun k => enqueuedSinceReset (σ k)) (· <+: ·)
    (fun k => (h.move k).enqueued_prefix (h.no_reset k)) hnm

/-- `txlog` never gets shorter. -/
theorem FairRun.txlog_length_le (h : FairRun σ e) {n m : Nat} (hnm : n ≤ m) :
    (σ n).txlog.length ≤ (σ m).txlog.length :=
  monotone_nat_of_le_succ (f := fun k => (σ k).txlog.length)
    (fun k => ((h.move k).txlog_prefix (h.no_reset k)).length_le) hnm

/-- `txlog` is the beginning of what was enqueued. -/
theorem FairRun.txlog_prefix_enqueued (h : FairRun σ e) (n : Nat) : (σ n).txlog <+: enqueuedSinceReset (σ n) := by
  have hpopped : (σ n).txlog <+: (σ n).popped := (transmissionRecordKept.2 _ (h.blockInv n).txlog).1
  rw [← (h.blockInv n).conserved]
  exact hpopped.trans (List.prefix_append _ _)

/-- An offer is accepted, and `txlog` gets longer (TX_FAIR). -/
theorem FairRun.txlog_grows_of_offered (h : FairRun σ e) {n : Nat} {v : Waveform}
    (hv : (σ n).startPending = some v) : ∃ m, n ≤ m ∧ (σ n).txlog.length < (σ m).txlog.length := by
  obtain ⟨m, hnm, hd, -⟩ := h.tx.accepts n v hv
  obtain ⟨u, -, hnext⟩ := execTxAccept_next (h.exec_eq hd)
  have hlen : (σ (m + 1)).txlog.length = (σ m).txlog.length + 1 := by simp [hnext]
  have hle := h.txlog_length_le hnm
  exact ⟨m + 1, by omega, by omega⟩

/-- Idle with work, a waveform is offered: the next TICK finds the block so (fairness of TICK). -/
theorem FairRun.offered_of_idle_with_work (h : FairRun σ e) {n : Nat} (hn : (σ n).busy = false ∧ (σ n).fifo ≠ []) :
    ∃ m, n ≤ m ∧ ∃ v, (σ m).startPending = some v := by
  refine eventually_of_unless (P := fun k => (σ k).busy = false ∧ (σ k).fifo ≠ []) hn
    (fun k _ => (h.move k).idle_with_work_or_offered (h.no_reset k)) fun hstays => ?_
  obtain ⟨m, hnm, hd⟩ := h.tick n
  obtain ⟨hb, hf⟩ := hstays m hnm
  obtain ⟨v, rest, hfifo⟩ := List.exists_cons_of_ne_nil hf
  have hnext := (execTick_start hb hfifo).symm.trans (h.exec_eq hd)
  exact ⟨m + 1, by omega, v, by rw [← Host.Outcome.next.inj hnext]⟩

/-- A pending completion is taken, which leaves the block Idle (fairness of SYNC). -/
theorem FairRun.idle_of_completion (h : FairRun σ e) {n : Nat} (hn : (σ n).donePending = true) :
    ∃ m, n ≤ m ∧ (σ m).busy = false := by
  refine eventually_of_unless (P := fun k => (σ k).donePending = true) hn
    (fun k _ => (h.move k).completion_pending_or_idle (h.no_reset k)) fun hstays => ?_
  obtain ⟨m, hnm, hd⟩ := h.sync n hstays
  obtain ⟨-, hnext⟩ := execSync_next (h.exec_eq hd)
  exact ⟨m + 1, by omega, by rw [hnext]⟩

/-- A waveform in flight finishes (TX_FAIR), and its completion is taken. -/
theorem FairRun.idle_of_inflight (h : FairRun σ e) {n : Nat} {v : Waveform} (hv : (σ n).inflight = some v) :
    ∃ m, n ≤ m ∧ (σ m).busy = false := by
  obtain ⟨k, hnk, hd, -⟩ := h.tx.finishes n v hv
  obtain ⟨u, -, hnext⟩ := execTxDone_next (h.exec_eq hd)
  obtain ⟨m, hkm, hb⟩ := h.idle_of_completion (n := k + 1) (by rw [hnext])
  exact ⟨m, by omega, hb⟩

/-- At every point a waveform is offered, or the block will be Idle: busy means offered, in flight or finished. -/
theorem FairRun.offered_or_idle (h : FairRun σ e) (n : Nat) :
    (∃ v, (σ n).startPending = some v) ∨ ∃ m, n ≤ m ∧ (σ m).busy = false := by
  cases hp : (σ n).startPending with
  | some v => exact .inl ⟨v, rfl⟩
  | none =>
    right
    cases hi : (σ n).inflight with
    | some v => exact h.idle_of_inflight hi
    | none =>
      cases hd : (σ n).donePending with
      | true => exact h.idle_of_completion hd
      | false => exact ⟨n, le_rfl, by simp [(h.blockInv n).handshake.busy_iff, hp, hi, hd, h.no_failed_start n]⟩

/-- Idle, the block has work while `txlog` lacks something of what was enqueued. -/
theorem FairRun.fifo_ne_nil_of_idle (h : FairRun σ e) {n : Nat} (hb : (σ n).busy = false)
    (hlt : (σ n).txlog.length < (enqueuedSinceReset (σ n)).length) : (σ n).fifo ≠ [] := by
  intro hf
  obtain ⟨hp, -, -, hx⟩ := (h.blockInv n).handshake.quiet_of_idle hb
  have hall : enqueuedSinceReset (σ n) = (σ n).txlog := by
    rw [← (h.blockInv n).conserved, hf, List.append_nil, (h.blockInv n).txlog.settled hp hx]
  rw [hall] at hlt
  exact lt_irrefl _ hlt

/-- While `txlog` lacks something of what was enqueued, it gets longer. -/
theorem FairRun.txlog_grows (h : FairRun σ e) {n : Nat}
    (hlt : (σ n).txlog.length < (enqueuedSinceReset (σ n)).length) :
    ∃ m, n ≤ m ∧ (σ n).txlog.length < (σ m).txlog.length := by
  obtain ⟨v, hv⟩ | ⟨k, hnk, hb⟩ := h.offered_or_idle n
  · exact h.txlog_grows_of_offered hv
  · by_cases hgrown : (σ n).txlog.length < (σ k).txlog.length
    · exact ⟨k, hnk, hgrown⟩
    have hmore := (h.enqueued_prefix hnk).length_le
    obtain ⟨j, hkj, v, hv⟩ := h.offered_of_idle_with_work ⟨hb, h.fifo_ne_nil_of_idle hb (by omega)⟩
    obtain ⟨m, hjm, hlonger⟩ := h.txlog_grows_of_offered hv
    have hle := h.txlog_length_le (hnk.trans hkj)
    exact ⟨m, by omega, by omega⟩

/-- `txlog` reaches every length up to that of what was enqueued. -/
theorem FairRun.txlog_reaches (h : FairRun σ e) {n k : Nat} (hk : k ≤ (enqueuedSinceReset (σ n)).length) :
    ∃ m, n ≤ m ∧ k ≤ (σ m).txlog.length := by
  induction k with
  | zero => exact ⟨n, le_rfl, Nat.zero_le _⟩
  | succ k ih =>
    obtain ⟨m, hnm, hkm⟩ := ih (by omega)
    by_cases hreached : k + 1 ≤ (σ m).txlog.length
    · exact ⟨m, hnm, hreached⟩
    have hmore := (h.enqueued_prefix hnm).length_le
    obtain ⟨j, hmj, hlonger⟩ := h.txlog_grows (n := m) (by omega)
    exact ⟨j, hnm.trans hmj, by omega⟩

end

end Sys2Proof.Machine
end

section
/-! PROOF. The statements of 60_exceptions.md: the sticky bits, steps that coincide, and what fairness promises. -/

namespace Sys2Proof.Machine

open Sys2Proof

/-- Settles O42: each move that changes a sticky bit names its step, and the step its label. -/
theorem stickyBitsClearedByResetOnly : Obligations.StickyBitsClearedByResetOnly := by
  intro w s t h
  have hm : Move w s t := runWord_moves h
  refine ⟨fun hl => ?_, hm.cmd_of_sets_malformedSeen, hm.cmd_of_sets_faultOverflow,
    fun hs ht => label_of_decode_instr (hm.txReject_of_sets_faultTxStart hs ht)⟩
  have hr : decode w ≠ .instr .reset := fun hd => hl (label_of_decode_instr hd)
  exact ⟨hm.keeps_malformedSeen hr, hm.keeps_faultOverflow hr, hm.keeps_faultTxStart hr⟩

/-- Settles O56: a TICK before the SYNC, or before the command, only polls. -/
theorem coincidingStepsMayTakeEitherOrder : Obligations.CoincidingStepsMayTakeEitherOrder := by
  refine ⟨fun s v rest hb hd hf => ⟨runWords_tick_of_poll _ (.inl hb), ?_⟩, fun c s hb hf hq => ?_⟩
  · calc runWords [encode .sync, encode .tick] s
        = runWords [encode .tick] { s with donePending := false, busy := false } :=
          runWords_cons_of_next (Move.sync (decode_encode .sync) hd).runWord_eq
      _ = _ := runWords_tick_of_idle rfl hf
  · obtain ⟨k, hk⟩ := Nat.exists_eq_add_one.mpr (Command.copies_pos c)
    have hcmd := (runWord_encode c.instr s).trans (exec_command_of_unbounded c hq)
    rw [hf, hk, List.nil_append, List.replicate_succ] at hcmd
    constructor
    · exact ⟨_, (runWords_cons_of_next hcmd).trans (runWords_tick_of_idle hb rfl), rfl, rfl, by simp [hk]⟩
    · exact ⟨_, (runWords_tick_of_poll _ (.inr hf)).trans (runWords_cons_of_next hcmd), rfl, hb, by simp [hk]⟩

/-- Settles O58: `txlog` and what was enqueued by n both begin what was enqueued by m, when `txlog` is as long. -/
theorem everyEnqueuedWaveformIsTransmitted : Obligations.EveryEnqueuedWaveformIsTransmitted := by
  intro σ e hrun hinv hreset hfault htick hsync htx n
  have h : FairRun σ e := ⟨hrun, hinv, hreset, hfault, htick, hsync, htx⟩
  obtain ⟨m, hnm, hlen⟩ := h.txlog_reaches le_rfl
  exact ⟨m, hnm, List.prefix_of_prefix_length_le (h.enqueued_prefix hnm) (h.txlog_prefix_enqueued m) hlen⟩

end Sys2Proof.Machine
end

section
/-! PROOF. The statement of 70_reset_and_hazards.md: what a producer's saturation (R240) leaves of a value. -/

namespace Sys2Proof.Machine

open Sys2Proof

/-- The saturated field (R240) as a number: the minimum of the value and the field's maximum always fits. -/
theorem saturateField_toNat (width v : Nat) : (saturateField width v).toNat = min v (2 ^ width - 1) := by
  have hfits : min v (2 ^ width - 1) < 2 ^ width :=
    (Nat.min_le_right _ _).trans_lt (Nat.sub_one_lt (Nat.two_pow_pos width).ne')
  rw [saturateField, BitVec.toNat_ofNat, Nat.mod_eq_of_lt hfits]

/-- An upper bound that itself fits the field cuts the saturated value as it cuts the value. -/
theorem min_saturateField_toNat {width bound : Nat} (v : Nat) (hfits : bound < 2 ^ width) :
    min (saturateField width v).toNat bound = min v bound := by
  rw [saturateField_toNat, min_assoc, min_eq_right (Nat.le_sub_one_of_lt hfits)]

/-- Settles O12: the three upper bounds of the clamps, 2, 99 and 10000, fit their fields. -/
theorem saturationKeepsTheClamps : Obligations.SaturationKeepsTheClamps := by
  refine ⟨fun width v => ⟨fun hover => ?_, fun hfits => ?_⟩, fun v => ⟨?_, ?_, ?_⟩⟩
  · rw [saturateField_toNat, Nat.min_eq_right (by omega)]
  · rw [saturateField_toNat, Nat.min_eq_left (by omega)]
  · exact min_saturateField_toNat v (by decide)
  · rw [clampIntensity_toNat, min_saturateField_toNat v (by decide)]
  · rw [clampDuration, min_saturateField_toNat v (by decide)]

end Sys2Proof.Machine
end
